-- ==== Sys2Proof/Word.lean ====
section
/-! DEFINITION. The word types of the XN8-384 model and the plainest arithmetic on them.

A byte of a register, a descriptor, a container or a memory is a bit vector.  Counts, identifiers,
cycle numbers, token positions and the exact integers of the result contract are `Nat` and `Int`. -/

namespace Sys2Proof

/-- One byte: the smallest addressable unit of every memory of the device. -/
abbrev Byte := BitVec 8

/-- One 64-bit BAR0 word (R413). -/
abbrev Word := BitVec 64

/-- A table by number, in ascending order of the number: what the manual numbers (Carriageways, rings,
tenant slots, Bays, requests, nodes) and mostly leaves at its reset value. -/
abbrev Tab (α : Type) := List (Nat × α)

/-- A 3-bit die number: Span dies 0 to 5, Abutment A 6, Abutment B 7 (R8). -/
abbrev Die := Nat

/-- Abutment A wherever a die is encoded (R8). -/
def dieA : Die := 6

/-- Abutment B wherever a die is encoded (R8). -/
def dieB : Die := 7

end Sys2Proof
end

