-- ==== Sys2Proof/Syntax.lean ====
section
/-! DEFINITION. The commands of the XN8-384: one constructor of `Instr` for each row of
spec/opcode_table.json, in the table's order.  The table gives its rows no operand fields, so a
command carries what its rule says reaches the device from outside at that moment: the fields of an
op word (Table 6.10), the bytes of a frame, a descriptor ring, an analogue reading, a host value. -/

namespace Sys2Proof

/-- The two paths of register orders (R176): BAR0 over CXL.io, and Trestle REG_WRITE. -/
inductive Path where
  | host
  | fleet
  deriving DecidableEq, Repr

/-- Common fields of an itinerary op (Table 6.8): the Carriageway and die whose stream holds it, its
issue cycle in the body, its predicate and its layer. -/
structure Op where
  cwy : Nat
  die : Die
  cyc : Nat
  pred : Nat
  layer : Nat
  deriving DecidableEq, Repr

/-- What the monitors of one die report in a margin search (R294): the set-points of its core rail, in mV, at which every
monitor reports slack of 10 % of a cycle or more. -/
structure MarginResult where
  pass : List Nat
  deriving DecidableEq, Repr

/-- A capability that a host may look for in configuration space, by the number PCIe or CXL gives it. -/
inductive CapId where
  | std (id : Nat)
  | ext (id : Nat)
  /-- A DVSEC of the CXL vendor identifier. -/
  | cxl (id : Nat)
  deriving DecidableEq, Repr

/-- A configuration-space request of the host (R356, R386) that the model tells apart. -/
inductive ConfigReq where
  | readUhlaeminDvsec
  | readCxlDvsec
  | readClass
  /-- The header type of function 0, or a read of another function (R353). -/
  | readHeaderType
  | readFunction (n : Nat)
  /-- Whether a capability is in the list (Table 15.1), and the words of those whose contents the spec states. -/
  | readCapability (c : CapId)
  | readDeviceCap
  | readPmCap
  | readPasidCap
  | readMsixCap
  | readHdmRange
  | readRegisterLocator
  /-- One dword of the six base address registers (Table 15.2). -/
  | readBar (n : Nat)
  | writeBar (n : Nat) (v : Nat)
  | readOther (off : Nat)
  | setCacheEnable (b : Bool)
  | setMemEnable (b : Bool)
  | setBackInvalidate (b : Bool)
  | setPasidEnable (b : Bool)
  | setAtsEnable (b : Bool)
  deriving DecidableEq, Repr

/-- Kinds of activity event whose energies are fused at test (R307). -/
inductive ActKind where
  | pierBeat
  | mainArrayCycle
  | girderInstr
  | nocViaductFlit
  | hbmByte
  | pelindFlit
  deriving DecidableEq, Repr

/-- A count of activity events of one kind on one die, in the units that one thermal node covers, caused by an op of one
Carriageway (R307, R315). -/
structure Activity where
  die : Die
  node : Nat
  cwy : Nat
  kind : ActKind
  count : Nat
  deriving DecidableEq, Repr

/-- Destination of a SLOT send (Table 6.10). -/
inductive SendDst where
  | bay (die : Die) (bay : Nat)
  | sram (die : Die) (addr : Nat)
  deriving DecidableEq, Repr

/-- An endpoint of a MOVE (Table 6.10): a Deck address, an Abutment SRAM address or a combine port. -/
inductive Endpoint where
  | deck (die : Die) (addr : Nat)
  | sram (die : Die) (addr : Nat)
  | combine (die : Die) (bay : Nat)
  deriving DecidableEq, Repr

/-- The register fields of a Girder instruction word (Table 6.13) and the Girder that runs it. -/
structure GInstr where
  span : Nat
  girder : Nat
  vd : Nat
  va : Nat
  vb : Nat
  pred : Nat
  deriving DecidableEq, Repr

/-- How the arithmetic unit ran: soundly, or so that its residue, duplicate or recheck of Table 4.9
caught it, having delivered the words given (R102). -/
inductive UnitRun where
  | sound
  | caught (delivered : List Nat)
  deriving DecidableEq, Repr

/-- Selections of VALU's immediate (Table 6.13). -/
inductive VaOp where
  | add | sub | and | or | xor | shl | shr | sar | cmpEq | cmpLt
  deriving DecidableEq, Repr

/-- Selections of SALU (Table 6.13): add, logic, compare and predicate set. -/
inductive SaOp where
  | add | sub | and | or | xor | cmpEq | cmpLt | setPred (p : Nat)
  deriving DecidableEq, Repr

/-- Key and vector number formats (Table 4.6). -/
inductive NumFmt where
  | int32 | int48 | bf16 | fp32
  deriving DecidableEq, Repr

/-- Requantisation targets of Table 2.3. -/
inductive ReqTarget where
  | int8s | int8 | bf16
  deriving DecidableEq, Repr

/-- The numerators VREQ works on (R37): accumulators with their m and b, or BF16 values with G. -/
inductive ReqInput where
  | acc (m b : List Int)
  | bf (g : Nat)
  deriving DecidableEq, Repr

/-- The parameters of one VREQ, read from the layer's parameter block in the Deck slice (Table 4.8):
target, numerator form, layer shift h, whether the 16 channels open a run, and the request's slot. -/
structure ReqParams where
  target : ReqTarget
  input : ReqInput
  h : Nat
  first : Bool
  slot : Nat
  /-- The numerators of the whole 512-channel segment and its u_max, when this VREQ opens an INT8S segment (R36). -/
  seg : Option (List Int × Nat)
  /-- The next Girder of the run, when this VREQ ends the block held here (R101). -/
  passTo : Option Nat
  deriving DecidableEq, Repr

/-- One arrival that a WAIT names: the arriving Abutment-side direction is found from its record. -/
structure Arrival where
  rxbuf : Nat
  tag : Nat
  deriving DecidableEq, Repr

/-- A flit whose CRC failed on a Viaduct link (R14): its number in the transfer, the link (Table 6.6), and
the 64 bytes as they arrived. -/
structure FlitFail where
  flit : Nat
  link : Nat
  data : List Byte
  deriving DecidableEq, Repr

/-- What a read of HBM meets: the flits with an HBM error and whether it is uncorrectable (R140, R234), and the flits whose
CRC fails on the Viaduct (R14). -/
structure ReadFail where
  ecc : List (Nat × Bool) := []
  crc : List FlitFail := []
  deriving DecidableEq, Repr

/-- A key envelope that a ring's descriptor names, and what its read meets (R14, R212, R234). -/
structure EnvelopeRead where
  ring : Nat
  fail : ReadFail := {}
  deriving DecidableEq, Repr

/-- The kind of bundle that a chunk belongs to, a Spandrel's by its slot, and what the read of the chunk meets (R210, R234). -/
structure ChunkRead where
  spandrel : Option Nat := none
  fail : ReadFail := {}
  deriving DecidableEq, Repr

/-- How a bulk write ends: whether the read-back held, and what the flits met on their way (R14, R74, R234). -/
structure BulkEnd where
  readBack : Bool
  fail : ReadFail := {}
  deriving DecidableEq, Repr

/-- The core cycle in which a row is written, and the flits whose CRC fails on the Viaduct (R14, R68). -/
structure RowWrite where
  t : Nat
  crc : List FlitFail := []
  deriving DecidableEq, Repr

/-- The physical Pier whose image a refresh has read, and what the read met (R14, R68, R234). -/
structure RefreshRead where
  phys : Nat
  fail : ReadFail := {}
  deriving DecidableEq, Repr

/-- Failures of a Girder routine: an uncorrectable error of Girder storage (R103); the bytes delivered where a residue,
comparison or list recheck of Table 4.9 failed (R102); and, for a wide routine, what its stream of weights meets. -/
structure GirFail where
  ecc : Bool := false
  check : Option (List Byte) := none
  read : ReadFail := {}
  deriving DecidableEq, Repr

/-- A pattern of a Girder inspection (R272): an operation of R96 on FP32 bits, or a BF16 FMA (R239). -/
inductive Pattern where
  | fma (a b c : Nat)
  | fmaBf16 (a b c : Nat)
  | ex2 (x : Nat)
  | rcp (x : Nat)
  | rsq (x : Nat)
  deriving DecidableEq, Repr

/-- An inspection beat of a run: its first core cycle, the test segment and the codes delivered. -/
structure InspBeat where
  start : Nat
  seg : List Int
  codes : List Int
  deriving DecidableEq, Repr

/-- One inspection run (R271, R272): for a Pier, whether the bulk write of the test image read back, and its beats; for a
Girder, the patterns with the bits that its routines gave, and the core cycles from `start` on that they take. -/
structure InspRun where
  wrote : Bool
  beats : List InspBeat
  start : Nat
  len : Nat
  patterns : List (Pattern × Nat)
  deriving DecidableEq, Repr

/-- The computations of a Girder routine that sections 2 and 4 define as a whole; addresses are 64-byte units of
the Girder's own Deck slice. -/
inductive Kernel where
  | other
  /-- lse_tree over the partials of a combine list, then lse_finish (R97). -/
  | lse (parts : List Nat) (out : Nat)
  /-- topk_merge over the lists of a combine list (R94). -/
  | topk (fmt : NumFmt) (k : Nat) (parts : List Nat) (out : Nat)
  /-- A wide Pier-segment of a logical Pier, from its segment record, as a partial-sum block (R100). -/
  | wide (bay pier rec out : Nat)
  deriving DecidableEq, Repr

/-- What the lead decided at a Keystone on a request's pages or on a prefix node, for a member that is not the lead
(Table 8.2): the frames of Table 14.7 do not carry it. -/
inductive KvAct where
  /-- The page of the request became a prefix node (R196). -/
  | node (h page : Nat)
  /-- The request ended (row 3). -/
  | ended (h : Nat)
  /-- A pause of a tenant's request took effect; its pages are copied out or stay (R201). -/
  | pause (h tenant : Nat) (copyOut : Bool)
  /-- Every block of the copy-out has been written and acknowledged on every member (R201). -/
  | copied (h : Nat)
  /-- The copy-out is abandoned (R204). -/
  | abandon (h : Nat)
  /-- The restore begins (R204). -/
  | restore (h : Nat)
  /-- The request leaves PAUSED (R204). -/
  | leave (h : Nat)
  /-- The request is rebuilt from its tokens (R205). -/
  | rebuilt (h : Nat)
  /-- A prefix node is evicted (R197). -/
  | evict (n : Nat)
  /-- The lookup of a request has pinned a prefix node (R195, R198). -/
  | pin (h n : Nat)
  /-- The request has taken its n page-table chunks with its reservation (R186). -/
  | chunks (h n : Nat)
  deriving DecidableEq, Repr

/-- Which host access failed (R364). -/
inductive HostAccess where
  | prompt (h : Nat)
  | tokenBuffer (h : Nat)
  | certItem (ring dindex : Nat)
  | certHeader (ring dindex : Nat)
  deriving DecidableEq, Repr

/-- A host access through the HDM window or BAR2; a read of HBM may meet errors (R14, R234), and a write through the HDM
window may be the write-back of a line that the device has snooped (R360). -/
inductive MemReq where
  | read (len : Nat) (fail : ReadFail)
  | write (data : List Byte) (back : Bool)
  deriving DecidableEq, Repr

/-- The two SPDM paths; each has its own connection state (R410). -/
inductive SpdmPath where
  | doe
  | trestle
  deriving DecidableEq, Repr

/-- An SPDM message as it comes in on a path. -/
structure SpdmMsg where
  path : SpdmPath
  bytes : List Byte
  deriving DecidableEq, Repr

/-- Head of a Trestle frame (Table 16.4): the ball it arrived on (0 TRS_DIN, 1 TRS_DOUT), its
addresses and sequence, and whether its CRC-32C and length hold (R400). -/
structure THead where
  ball : Nat
  dst : Nat
  src : Nat
  seq : Nat
  /-- The len and crc fields as received: the frame is whole where they agree with its bytes (R400). -/
  len : BitVec 16
  crc : BitVec 32
  /-- Its preamble came while the device drove this ball or forwarded the other way (R401). -/
  clash : Bool
  deriving DecidableEq, Repr

/-- What an identity frame carries (R331): the neighbour's tag bytes, torus size and coordinate, its
physical port and the logical direction that port is mapped to. -/
structure IdFrame where
  tag : List Byte
  size : Nat × Nat × Nat
  coord : Nat × Nat × Nat
  port : Nat
  map : Nat
  deriving DecidableEq, Repr

/-- How signal detect ended on a port (R329). -/
inductive DetectResult where
  | light
  | crossed
  | dark
  deriving DecidableEq, Repr

/-- A vote or release frame as it arrives on a port: its 448 wire bytes, and the lane that lost lock during it (R324,
R333). -/
structure KeyFrame where
  port : Nat
  wire : List Byte
  lockLost : Option Nat
  deriving DecidableEq, Repr

/-- One column's phase 4 sums S₊ and S₋ (R278). -/
abbrev ColSums := Int × Int

/-- One command: a row of spec/opcode_table.json. -/
inductive Instr where
  /-- PERST_N_DEASSERT (R385). -/
  | perstNDeassert
  /-- PERST_N_ASSERT (R395). -/
  | perstNAssert
  /-- CONFIG_REQUEST (R386). -/
  | configRequest (q : ConfigReq)
  /-- STAGE_ROM (R391): the header bytes read from flash, none when it cannot be read. -/
  | stageRom (hdr : Option (List Byte))
  /-- STAGE_VERIFY (R391): the code bytes read from flash. -/
  | stageVerify (code : Option (List Byte))
  /-- STAGE_DIES (R387): dies whose PLL failed, and Viaduct bundles (Table 6.6) that failed. -/
  | stageDies (pllFail : List Die) (linkFail : List Nat)
  /-- STAGE_HBM (R388): failing rows and repair resources of stacks 0 to 7. -/
  | stageHbm (failRows spareRows : List Nat)
  /-- STAGE_LEDGER (R258): the 32-byte records of the Ledger region, none when unreadable. -/
  | stageLedger (recs : Option (List (List Byte)))
  /-- STAGE_MARGIN (R294): the search's result on dies 0 to 7. -/
  | stageMargin (res : List MarginResult)
  /-- STAGE_CAL (R385). -/
  | stageCal
  /-- REC_BUFFER_WRITE (R392): offset in the recovery buffer and the bytes. -/
  | recBufferWrite (off : Nat) (data : List Byte)
  /-- REC_BEGIN (R392). -/
  | recBegin (len : Nat)
  /-- REC_CHUNK (R392). -/
  | recChunk (chunk count : Nat)
  /-- REC_FINISH (R393). -/
  | recFinish
  /-- REC_ABORT (R392). -/
  | recAbort
  /-- REC_REINIT_LEDGER (R398). -/
  | recReinitLedger
  /-- RECOVERY_PROGRAM_DONE (R393): whether programming and read-back succeeded. -/
  | recoveryProgramDone (programmed readBack : Bool)
  /-- COMMIT_SVN (R422): a go write, with the cmd field the register holds. -/
  | commitSvn (cmd : Nat)
  /-- COMMIT_SVN_DONE (R394). -/
  | commitSvnDone
  /-- WATCHDOG_EXPIRY (R396). -/
  | watchdogExpiry
  /-- HK_UNCORRECTABLE_ERROR (R396). -/
  | hkUncorrectableError
  /-- HOUSEKEEPER_RESTART (R397): the flash image its boot ROM verifies. -/
  | housekeeperRestart (p : Path) (hdr : Option (List Byte)) (code : Option (List Byte))
  /-- WATCHDOG_SERVICE (R397). -/
  | watchdogService
  /-- REGISTER_WRITE (R421): path, BAR0 offset, access size in bytes and value. -/
  | registerWrite (p : Path) (off size : Nat) (val : Word)
  /-- PLL_LOCK_LOSS (R291). -/
  | pllLockLoss (d : Die)
  /-- JOB_FREQ_WRITE (R295): path and frequency step. -/
  | jobFreqWrite (p : Path) (n : Nat)
  /-- SLEW_COMPLETE (R299). -/
  | slewComplete
  /-- IDLE_GLIDE_STEP (R301). -/
  | idleGlideStep
  /-- DROOP_TRIP (R302). -/
  | droopTrip (d : Die)
  /-- DROOP_CLEAR (R302). -/
  | droopClear
  /-- SLEW_RESUME (R304). -/
  | slewResume
  /-- VR_ALERT_ASSERT (R303): STATUS_WORD of regulators 0 to 3. -/
  | vrAlertAssert (status : List Nat)
  /-- VR_ALERT_DEASSERT (R303). -/
  | vrAlertDeassert
  /-- FLOOR_RELEASE (R303). -/
  | floorRelease
  /-- MARGIN_SEARCH (R294): the result on dies 0 to 7. -/
  | marginSearch (res : List MarginResult)
  /-- POWER_SAMPLE (R306, R428): the eleven IMON inputs, in mV. -/
  | powerSample (mv : List Nat)
  /-- ENERGY_SPLIT (R307): the interval's activity events. -/
  | energySplit (acts : List Activity)
  /-- CAP_LOOP (R309). -/
  | capLoop
  /-- PWR_CAP_WRITE (R312): path and the 64-bit word written. -/
  | pwrCapWrite (p : Path) (w : Word)
  /-- HINT_BOOST_START (R313): the hint's number. -/
  | hintBoostStart (n : Nat)
  /-- HINT_WINDOW_END (R313). -/
  | hintWindowEnd (n : Nat)
  /-- THERMAL_MODEL_STEP (R315). -/
  | thermalModelStep
  /-- DIODE_READ (R316): readings of diode 6d + i, in 1/1,000 °C. -/
  | diodeRead (vals : List Int)
  /-- THERMAL_COMPARE (R317). -/
  | thermalCompare
  /-- SHUTDOWN_COMPLETE (R320): how many Carriageways were disabled before the sequence ended. -/
  | shutdownComplete (n : Nat)
  /-- THERMTRIP (R322). -/
  | thermtrip (d : Die)
  /-- BEAT (R54): bay, pier_mask, slot, rec and stride of Table 6.10. -/
  | beat (op : Op) (bay mask slot rec stride : Nat)
  /-- CONVERSION_SLOT (R58): physical Pier, slot m, the raw readings of converters 0 to 65, and whether a fault of
  the Pier lets them leave what R60 promises. -/
  | conversionSlot (span bay phys m : Nat) (raw : List Int) (faulty : Bool)
  /-- BEAT_VERDICT (R67): physical Pier, and whether a residue of its array products mismatched (R102). -/
  | beatVerdict (span bay phys : Nat) (residue : Bool)
  /-- SLOT_APPLY (R81): the core cycle, and the cells (512 × slot + column) whose residue unit reports a mismatch. -/
  | slotApply (span bay t : Nat) (mismatch : List Nat)
  /-- BALLAST (R128). -/
  | ballast (op : Op) (bay mask : Nat)
  /-- WSEG (R40), and whether a residue of its products mismatched (R102). -/
  | wseg (op : Op) (bay pier slot rec : Nat) (residue : Bool)
  /-- SLOT_CLEAR (R83). -/
  | slotClear (op : Op) (bay slot : Nat)
  /-- SLOT_DRAIN (R83). -/
  | slotDrain (op : Op) (bay slot off : Nat)
  /-- SLOT_SEND (R83), with the flits whose CRC fails. -/
  | slotSend (op : Op) (bay slot : Nat) (dst : SendDst) (crc : List FlitFail)
  /-- COMBINE (R87). -/
  | combine (op : Op) (bay slot : Nat)
  /-- PARTIAL_SUM_FLIT_ARRIVAL (R87): the Bay, the arrival cycle and the number of the flit that a send or a MOVE put
  under way to its combine port. -/
  | partialSumFlitArrival (span bay t f : Nat)
  /-- GIRDER (R147): what the routine computes, how many SECDED errors of Girder storage it corrects (R103), and the
  failures that it meets. -/
  | girder (op : Op) (g routine arg0 arg1 : Nat) (k : Kernel) (fixed : Nat) (fail : GirFail)
  /-- VFMA.BF16 (R99). -/
  | vfmaBf16 (i : GInstr) (u : UnitRun)
  /-- VFMA.F32 (R99). -/
  | vfmaF32 (i : GInstr) (u : UnitRun)
  /-- VDOT.I8 (R99): the admission slot whose result it serves, none where no result of section 2 is served. -/
  | vdotI8 (i : GInstr) (serves : Option Nat) (u : UnitRun)
  /-- VALU (R98). -/
  | valu (i : GInstr) (f : VaOp) (u : UnitRun)
  /-- VMAX (R95). -/
  | vmax (i : GInstr) (fmt : NumFmt) (u : UnitRun)
  /-- VEX2 (R96). -/
  | vex2 (i : GInstr) (u : UnitRun)
  /-- VRCP (R96). -/
  | vrcp (i : GInstr) (u : UnitRun)
  /-- VRSQ (R96). -/
  | vrsq (i : GInstr) (u : UnitRun)
  /-- VREQ (R37). -/
  | vreq (i : GInstr) (r : ReqParams) (u : UnitRun)
  /-- VTOPK (R93): key format, k, and whether it starts a new list. -/
  | vtopk (i : GInstr) (fmt : NumFmt) (k : Nat) (fresh : Bool) (slot : Nat) (u : UnitRun)
  /-- VLD (R98): Deck offset in 64-byte units and the core cycle. -/
  | vld (i : GInstr) (off t : Nat)
  /-- VST (R98). -/
  | vst (i : GInstr) (off t : Nat)
  /-- VRLD (R98): the other slice's group, the offset and the core cycle. -/
  | vrld (i : GInstr) (grp off t : Nat)
  /-- SALU (R98). -/
  | salu (i : GInstr) (f : SaOp) (u : UnitRun)
  /-- SMUL (R98). -/
  | smul (i : GInstr) (u : UnitRun)
  /-- LOOP (R98): the number of next words and how often they run. -/
  | loop (i : GInstr) (words times : Nat)
  /-- END (R147): the core cycle in which the routine reaches it. -/
  | endRoutine (span girder t : Nat)
  /-- MOVE (R141): source, destination, flits, and the flits whose CRC fails (R14). -/
  | move (op : Op) (src dst : Endpoint) (flits : Nat) (crc : List FlitFail)
  /-- HBM_RD (R108): carve-out unit, local address, flits, the flits with an HBM error and whether it is
  uncorrectable (R234), and the flits whose CRC fails (R14). -/
  | hbmRd (op : Op) (hoff laddr flits : Nat) (ecc : List (Nat × Bool)) (crc : List FlitFail)
  /-- HBM_WR (R108). -/
  | hbmWr (op : Op) (hoff laddr flits : Nat) (crc : List FlitFail)
  /-- KV_RD (R194). -/
  | kvRd (op : Op) (aslot page pages head laddr : Nat) (ecc : List (Nat × Bool)) (crc : List FlitFail)
  /-- KV_STAGE (R191). -/
  | kvStage (op : Op) (aslot tok head laddr : Nat) (crc : List FlitFail)
  /-- PL_SEND (R328). -/
  | plSend (op : Op) (dir dmember rxbuf tag saddr flits : Nat)
  /-- WAIT (R113). -/
  | wait (op : Op) (arrivals : List Arrival)
  /-- WAIT_RELEASE (R113). -/
  | waitRelease (c : Nat)
  /-- WAIT_LIMIT_EXPIRY (R116): the Carriageway and the late direction. -/
  | waitLimitExpiry (c dir : Nat)
  /-- STREAM_DRAIN_DONE (R116). -/
  | streamDrainDone (c : Nat)
  /-- STREAM_FETCH (R139): Carriageway, die, block number, and the failures that the read meets. -/
  | streamFetch (c : Nat) (die : Die) (block : Nat) (fail : ReadFail)
  /-- KEYSTONE (R121): the op, and the token identifiers that the body delivered for each admission slot (R17). -/
  | keystone (op : Op) (sel : Tab (List Nat))
  /-- VOTE_FRAME_ARRIVAL (R351): Carriageway, child member index and the frame. -/
  | voteFrameArrival (c child : Nat) (f : KeyFrame)
  /-- RELEASE_FRAME_ARRIVAL (R351): the frame, or none on the lead, whose own release takes effect; with the last frame
  of a stream, what the lead decided on the requests' pages. -/
  | releaseFrameArrival (c : Nat) (f : Option KeyFrame) (acts : List KvAct)
  /-- BODY_START (R107): the cycle from which the Carriageway is ready to start. -/
  | bodyStart (c t : Nat)
  /-- KEYSTONE_TIMEOUT (R124). -/
  | keystoneTimeout (c : Nat)
  /-- IDLE_KEYSTONE (R170). -/
  | idleKeystone (c : Nat)
  /-- TAKEOVER_KEYSTONE (R261). -/
  | takeoverKeystone (c : Nat)
  /-- HOLD_DONE (R217): the Piers (span, bay, logical) whose bulk write failed its read-back (R220). -/
  | holdDone (c : Nat) (readBackFail : List (Nat × Nat × Nat))
  /-- JOB_START (R134): the other members that have passed their checks and ramped in. -/
  | jobStart (c : Nat) (others : List Nat)
  /-- BALLAST_TIMER (R129). -/
  | ballastTimer (c t : Nat)
  /-- RAMP_WINDOW (R130). -/
  | rampWindow (c t : Nat)
  /-- CWY_ENABLE (R152). -/
  | cwyEnable (p : Path) (c : Nat)
  /-- CWY_DISABLE (R153). -/
  | cwyDisable (p : Path) (c : Nat)
  /-- CWY_RESUME (R155): the enable bit written beside resume. -/
  | cwyResume (p : Path) (c : Nat) (en : Bool)
  /-- CONSISTENCY_CHECK_DONE (R132). -/
  | consistencyCheckDone
  /-- GRANT_WRITE (R362): path, Carriageway, word 0 to 15 of CWY_GRANT and its value. -/
  | grantWrite (p : Path) (c k : Nat) (w : Word)
  /-- TENANT_BIND (R157). -/
  | tenantBind (t : Nat)
  /-- BINDING_CHECK_DONE (R157). -/
  | bindingCheckDone
  /-- TENANT_UNBIND (R159). -/
  | tenantUnbind (t : Nat)
  /-- DOORBELL_SNOOP (R371): the ring and the sq_tail and cq_head that the re-read returns. -/
  | doorbellSnoop (r sqTail cqHead : Nat)
  /-- DOORBELL_POLL (R372). -/
  | doorbellPoll (r sqTail cqHead : Nat)
  /-- DOORBELL_MODE_CHANGE (R373): the doorbell lines (ring, sq_tail, cq_head) read at the instant. -/
  | doorbellModeChange (lines : List (Nat × Nat × Nat))
  /-- DESCRIPTOR_READ_COMPLETE (R375): the ring and the 64-byte descriptors read. -/
  | descriptorReadComplete (r : Nat) (descs : List (List Byte))
  /-- SUBMIT (R165): the ring whose oldest unvalidated descriptor is judged. -/
  | submit (r : Nat)
  /-- CANCEL (R175). -/
  | cancel (r : Nat)
  /-- PAUSE (R199). -/
  | pause (r : Nat)
  /-- RESUME (R175). -/
  | resume (r : Nat)
  /-- QUERY (R380). -/
  | query (r : Nat)
  /-- FETCH_CERT (R252). -/
  | fetchCert (r : Nat)
  /-- LOAD_WEIGHTS, op 0 (R214). -/
  | loadWeights (r : Nat)
  /-- LOAD_WEIGHTS_KEY_ENVELOPE, op 1 (R212). -/
  | loadWeightsKeyEnvelope (r : EnvelopeRead)
  /-- REPLACE_LAYER (R216). -/
  | replaceLayer (r : Nat)
  /-- LOAD_SPANDREL (R222). -/
  | loadSpandrel (r : Nat)
  /-- RETIRE_SPANDREL (R225). -/
  | retireSpandrel (r : Nat)
  /-- HINT (R313). -/
  | hint (r : Nat)
  /-- RESERVED_KIND (R5). -/
  | reservedKind (r : Nat)
  /-- PROMPT_CHUNK_READ (R172): the request's handle and the tokens read. -/
  | promptChunkRead (h : Nat) (toks : List Nat)
  /-- PREFIX_LOOKUP_READ (R195): the handle and the next page's 16 tokens, none when the read failed. -/
  | prefixLookupRead (h : Nat) (toks : Option (List Nat))
  /-- HOST_ACCESS_FAILURE (R364). -/
  | hostAccessFailure (a : HostAccess)
  /-- RING_ACCESS_FAILURE (R370): ring, cause code (event 0x0002), and for a failed CQ write how many of the ring's latest
  completions it leaves unwritten. -/
  | ringAccessFailure (r cause n : Nat)
  /-- TTL_LAPSE (R203). -/
  | ttlLapse (h : Nat)
  /-- COPY_OUT_BLOCK_ACK (R201): handle, page ordinal and block number. -/
  | copyOutBlockAck (h page blk : Nat)
  /-- RESTORE_BLOCK_READ (R204): handle, page ordinal, block number and the ciphertext read. -/
  | restoreBlockRead (h page blk : Nat) (ct : List Byte)
  /-- BUNDLE_CHUNK (R210): the Carriageway and the chunk read. -/
  | bundleChunk (c : Nat) (read : ChunkRead)
  /-- BUNDLE_LOAD_DONE (R215). -/
  | bundleLoadDone (c : Nat)
  /-- BULK_WRITE_DONE (R74): the Pier and how its bulk write ends. -/
  | bulkWriteDone (span bay phys : Nat) (fin : BulkEnd)
  /-- SPANDREL_PLACED (R223). -/
  | spandrelPlaced (n : Nat)
  /-- REFRESH_READ_DONE (R68): the Pier, with the HBM errors that the read meets. -/
  | refreshReadDone (span bay : Nat) (read : RefreshRead)
  /-- REFRESH_ROW_WRITE (R68): the Pier and the write of its next row. -/
  | refreshRowWrite (span bay phys : Nat) (row : RowWrite)
  /-- REFRESH_OVERDUE (R71). -/
  | refreshOverdue (span bay phys : Nat)
  /-- VREF_SAMPLE (R276): the sample, signed, in units of 100 µV. -/
  | vrefSample (v : Int)
  /-- CALIBRATION_BEAT (R280). -/
  | calibrationBeat (span bay phys t : Nat)
  /-- CAL_PASS_DONE (R279): phase 4 sums of the 528 columns, and phase 5 raw readings at the four levels. -/
  | calPassDone (span bay phys : Nat) (sums : List ColSums) (ver : List (List Int))
  /-- RECOVERY_ACTION_START (R266). -/
  | recoveryActionStart
  /-- WIN_CFG_WRITE (R257). -/
  | winCfgWrite (p : Path) (w : Word)
  /-- LEDGER_WRITE (R258): whether the flash write succeeded. -/
  | ledgerWrite (ok : Bool)
  /-- LEDGER_CHECKPOINT (R258). -/
  | ledgerCheckpoint (ok : Bool)
  /-- LEDGER_COMPACTION (R259). -/
  | ledgerCompaction (ok : Bool)
  /-- INSPECTION_BEAT (R271): the Pier, its first core cycle, the test segment and the codes delivered under stress. -/
  | inspectionBeat (span bay phys t : Nat) (seg codes : List Int)
  /-- SPARE_INSPECTION (R272): the spare and what its inspection delivered. -/
  | spareInspection (span bay phys : Nat) (run : InspRun)
  /-- GIRDER_INSPECTION (R272): the Girder and what its pattern routines gave. -/
  | girderInspection (span girder : Nat) (run : InspRun)
  /-- INSPECTION_STARVED (R273): unit 0 Pier or 1 Girder. -/
  | inspectionStarved (unit span bay index : Nat)
  /-- FENCE_CLEAR (R274): path and the 32-bit word written to RAS_FENCE_CLR. -/
  | fenceClear (p : Path) (w : Word)
  /-- FENCE_CLEAR_DONE (R274): what the eight inspections delivered. -/
  | fenceClearDone (runs : List InspRun)
  /-- WINDOW_CLOSE (R248). -/
  | windowClose
  /-- WINDOW_SIGNED (R249). -/
  | windowSigned
  /-- SIGNING_FAILURE (R250). -/
  | signingFailure
  /-- EVENT_HEAD_POLL (R381): the head read. -/
  | eventHeadPoll (head : Nat)
  /-- EVENT_RING_FAILURE (R381): how many of the latest records the failure leaves unwritten, 0 for a read of the head. -/
  | eventRingFailure (n : Nat)
  /-- EVENT_RING_ENABLE (R381). -/
  | eventRingEnable
  /-- MSIX_UNMASK (R384). -/
  | msixUnmask (v : Nat)
  /-- RING_ENABLE (R370). -/
  | ringEnable (r : Nat)
  /-- RING_DISABLE (R370). -/
  | ringDisable (r : Nat)
  /-- RING_OFF (R370). -/
  | ringOff (r : Nat)
  /-- HDM_MAP_WRITE (R360): the 64-bit word written. -/
  | hdmMapWrite (w : Word)
  /-- LAND_MAP_WRITE (R359). -/
  | landMapWrite (w : Word)
  /-- HDM_ACCESS (R360): window offset and access. -/
  | hdmAccess (off : Nat) (q : MemReq)
  /-- BAR2_ACCESS (R358). -/
  | bar2Access (off : Nat) (q : MemReq)
  /-- ATS_INVALIDATION (R363): PASID and page address. -/
  | atsInvalidation (pasid : Option Nat) (page : Nat)
  /-- CXL_LINK_LOSS (R355). -/
  | cxlLinkLoss
  /-- HOT_RESET (R355). -/
  | hotReset
  /-- D3HOT (R355). -/
  | d3hot
  /-- DOE_DISCOVERY (R357): the index asked for. -/
  | doeDiscovery (index : Nat)
  /-- CDAT_TABLE_ACCESS (R357). -/
  | cdatTableAccess (entry : Nat)
  /-- GET_VERSION (R410): the message, as for each SPDM request; where it comes in several operands, their bytes in order. -/
  | getVersion (q : SpdmMsg)
  /-- GET_CAPABILITIES (R410). -/
  | getCapabilities (q : SpdmMsg)
  /-- NEGOTIATE_ALGORITHMS (R410): the head of the message and its body. -/
  | negotiateAlgorithms (p : SpdmPath) (head body : List Byte)
  /-- GET_DIGESTS (R410). -/
  | getDigests (q : SpdmMsg)
  /-- GET_CERTIFICATE (R410): the head of the message, the offset and the length. -/
  | getCertificate (p : SpdmPath) (head off len : List Byte)
  /-- CHALLENGE (R410): the head of the message, and its nonce and context. -/
  | challenge (p : SpdmPath) (head body : List Byte)
  /-- GET_MEASUREMENTS (R410): the head of the message, the nonce where it asks for a signature, and the rest. -/
  | getMeasurements (p : SpdmPath) (head nonce body : List Byte)
  /-- SPDM_UNSUPPORTED_REQUEST (R410). -/
  | spdmUnsupportedRequest (p : SpdmPath) (msg : List Byte)
  /-- ENUMERATE (R404): next and the restart flag. -/
  | enumerate (f : THead) (next : Nat) (restart : Bool)
  /-- IDENT (R406). -/
  | ident (f : THead)
  /-- REG_READ (R418): BAR0 offset and words. -/
  | regRead (f : THead) (off words : Nat)
  /-- REG_WRITE (R406): BAR0 offset and the words. -/
  | regWrite (f : THead) (off : Nat) (words : List Word)
  /-- JOB_KEY (R341): Carriageway and the 1,664-byte envelope. -/
  | jobKey (f : THead) (c : Nat) (env : List Byte)
  /-- ALERT (R408): the clear flag. -/
  | alert (f : THead) (clear : Bool)
  /-- SPDM (R410): the bytes of one SPDM message in a Trestle frame. -/
  | spdm (f : THead) (msg : List Byte)
  /-- RESPONSE (R401): another device's response and its payload. -/
  | response (f : THead) (payload : List Byte)
  /-- BALL_CONTENTION (R403): the driven ball, and how many consecutive bit periods it read the opposite level. -/
  | ballContention (ball periods : Nat)
  /-- BALL_STUCK_LOW (R403). -/
  | ballStuckLow (ball : Nat)
  /-- CLR_ISO (R403). -/
  | clrIso (p : Path)
  /-- LNK_TORUS_WRITE (R336): path and the word. -/
  | lnkTorusWrite (p : Path) (w : Word)
  /-- PORT_MAP_WRITE (R332): path, port and the direction written. -/
  | portMapWrite (p : Path) (port dir : Nat)
  /-- PORT_DISABLE (R332): path, port and the disable bit written. -/
  | portDisable (p : Path) (port : Nat) (dis : Bool)
  /-- RETRAIN (R329). -/
  | retrain (p : Path) (port : Nat)
  /-- RETRAIN_TIMER (R329). -/
  | retrainTimer (port : Nat)
  /-- LNK_THRU_WRITE (R347): path, outgoing port and the word. -/
  | lnkThruWrite (p : Path) (q : Nat) (w : Word)
  /-- SIGNAL_DETECT (R329). -/
  | signalDetect (port : Nat) (res : DetectResult)
  /-- LANE_IDENTIFICATION (R330): bit k of locked tells whether sender lane k locked. -/
  | laneIdentification (port locked : Nat)
  /-- IDENTITY_EXCHANGE (R331): the identity frame, none when the phase did not complete. -/
  | identityExchange (port : Nat) (idf : Option IdFrame)
  /-- TRAINING_DONE (R323): the measured one-way latency in ns, none when echo did not complete. -/
  | trainingDone (port : Nat) (lat : Option Nat)
  /-- IDENTITY_FRAME (R331). -/
  | identityFrame (port : Nat) (idf : IdFrame)
  /-- LANE_LOSS_OF_LOCK (R334): logical lane; lost lock, or corrected bytes above lane_cb_thr in 1 ms (R333). -/
  | laneLossOfLock (port lane : Nat) (lost : Bool)
  /-- LANE_CHANGE_FRAME (R334). -/
  | laneChangeFrame (port lane : Nat)
  /-- LANE_SPARE_MOVE (R334). -/
  | laneSpareMove (port : Nat)
  /-- FRAME_TRANSMIT (R328): port and slot of the epoch. -/
  | frameTransmit (port slot : Nat)
  /-- DATA_FRAME_ARRIVAL (R339): port, the 448 wire bytes, and the lane that lost lock during the frame. -/
  | dataFrameArrival (port : Nat) (wire : List Byte) (lockLost : Option Nat)
  /-- FRAME_FORWARD (R338): arriving port and the 416 data bytes of a frame for another member. -/
  | frameForward (port : Nat) (bytes : List Byte)
  /-- THROUGH_FRAME (R347): arriving port and the frame's data bytes. -/
  | throughFrame (port : Nat) (bytes : List Byte)
  /-- NAK_FRAME (R352): the port on which it arrived and the frame index asked for. -/
  | nakFrame (port c index : Nat)
  /-- CXL_LINK_TRAINED (R353): lanes, rate in GT/s and whether 256-byte flit mode was negotiated. -/
  | cxlLinkTrained (width rate : Nat) (flit256 : Bool)
  /-- OPEN_BLOCK_WRITE_VISIBLE (R193): Carriageway and the cache block's number. -/
  | openBlockWriteVisible (c blk : Nat)
  /-- RESERVED_FTYPE_FRAME (R325): port and the frame's data bytes. -/
  | reservedFtypeFrame (port : Nat) (bytes : List Byte)
  /-- RESERVED_TRESTLE_FRAME (R401): type code and payload. -/
  | reservedTrestleFrame (f : THead) (typ : Nat) (payload : List Byte)
  deriving DecidableEq, Repr

end Sys2Proof
end

