-- ==== Sys2Proof/Config.lean ====
section
/-! DEFINITION. What one part fixes (fuses, keys, fused energies) and the values the spec leaves open.
Every constant here has no body: nothing in Lean can see its value, so what is proved holds for all. -/

namespace Sys2Proof.Config

/-- FREE VALUE. The n-th value that the spec leaves open; n is the model's own draw counter. -/
opaque freeValue : Nat → Nat

/-- FREE VALUE. Byte i of the n-th draw from the device's random source (R166, R202, R231). -/
opaque random : Nat → Nat → BitVec 8

/-- Whether an ML-DSA-65 signature verifies: key, message, signature. -/
opaque mldsaVerify : List (BitVec 8) → List (BitVec 8) → List (BitVec 8) → Bool

/-- Byte i of the ML-DSA-65 signature over a message, under the key generated from a seed ξ: seed, message (R409). -/
opaque mldsaSign : List (BitVec 8) → List (BitVec 8) → Nat → BitVec 8

/-- Byte i of the secret that ML-KEM-1024 decapsulation gives for a ciphertext, under the key generated from a seed
(d, z): seed, ciphertext (R212, R409). -/
opaque kemSecret : List (BitVec 8) → List (BitVec 8) → Nat → BitVec 8

/-- Byte i of the ML-DSA-65 public key generated from a seed ξ (R409). -/
opaque mldsaPublic : List (BitVec 8) → Nat → BitVec 8

/-- Byte i of the OTP secret (R409). -/
opaque otpSecretByte : Nat → BitVec 8

/-- Byte i of the SPDM certificate chain of slot 0, and its length (R410). -/
opaque chainByte : Nat → BitVec 8
opaque chainLen : Nat

/-- What the spec leaves open of the SPDM responder (log 80): bytes 0 to 8 of CTExponent, DataTransferSize and
MaxSPDMmsgSize, and which measurement blocks belong to the trusted computing base. -/
opaque spdmSizeByte : Nat → BitVec 8
opaque tcbBlock : Nat → Bool

/-- Byte i of the DER certificate of the key-encapsulation key, and its length (Table 16.6). -/
opaque kemCertByte : Nat → BitVec 8
opaque kemCertLen : Nat

/-- Byte i of the SHAKE256 digest of the boot ROM (Table 16.6). -/
opaque romDigestByte : Nat → BitVec 8

/-- Byte i of the vendor root digest fused in OTP (R391). -/
opaque vendorRootByte : Nat → BitVec 8

/-- Fused Fmax of Span s above frequency step 32 (R292): taken mod 17, so that it lies in 32 to 48. -/
opaque fmaxFuse : Nat → Nat

/-- Fused stepping and vendor fields of DEV_ID. -/
opaque stepping : BitVec 8
opaque vendor : BitVec 16

/-- Energy of one activity event, in picojoules, by kind 0 to 5 (R307). -/
opaque eventPj : Nat → Nat

/-- The RC model's next temperature of a node in 1/1,000 °C (R315): die, node, the die's node temperatures, the rail
powers in µW, and the die's activity counters, six kinds for each of its 48 nodes, which apportion the die's power. -/
opaque rcStep : Nat → Nat → List Int → List Nat → List Nat → Int

/-- The tap at which the reference of a Span meets a reading of 1.000 V (Table 12.1). -/
opaque refBase : Nat → Int

/-- Node of diode i of an Abutment die (fused positions). -/
opaque abutDiode : Nat → Nat → Nat

/-- Byte i of the test image that a spare's inspection writes (R272). -/
opaque testByte : Nat → BitVec 8

/-- FREE VALUE. Which line a full snoop filter evicts (R360): an index into it. -/
opaque evictIndex : List Nat → Nat

/-- FREE VALUE. The word that a compare of a Girder writes for false and for true (Table 6.13 names no value). -/
opaque cmpWord : Bool → Nat

end Sys2Proof.Config
end

