-- ==== Sys2Proof/Machine/State.lean ====
section
/-! DEFINITION. The whole state of one XN8-384 as plain data, the named reasons a step can stop, and the
state right after PERST_N deassertion.  Unit arrays (Bays, Carriageways, rings, requests) are sparse
tables by number: a number that a table does not list stands at the default of its structure, which is
its value at reset. -/

namespace Sys2Proof.Machine

/-- A byte string: a frame, a record, a key, a digest. -/
abbrev Bytes := List Byte

/-- A memory in canonical form: addresses strictly rising, no entry equal to 0, which is what an
unlisted address reads as (R388 for HBM). -/
abbrev Mem := List Host.Cell

/-- How a read of host memory goes out: on CXL.io, or on CXL.cache (R371, R372, R381). -/
inductive ReadKind where
  | io
  | rdShared
  | rdCurr
  deriving DecidableEq, Repr

/-- What the device sends out of the package: the newest output stands first in `State.out`. -/
inductive Output where
  /-- A posted write into host memory (R369, R381). -/
  | hostWrite (pasid : Option Nat) (addr : Nat) (data : Bytes)
  /-- A read of host memory that the device issues (R371, R172). -/
  | hostRead (kind : ReadKind) (pasid : Option Nat) (addr len : Nat)
  /-- An ATS translation request for a page (R363). -/
  | atsRequest (pasid : Option Nat) (page : Nat)
  | msix (vector : Nat)
  /-- Answer to a configuration request; none is Configuration Request Retry Status (R386). -/
  | config (data : Option Bytes)
  /-- The 448 wire bytes of a Pelind frame with the port it leaves on (R324). -/
  | frame (port : Nat) (wire : Bytes)
  /-- A Trestle frame sent or forwarded on a ball, bit by bit in the order of the wire (R400, R401). -/
  | trestle (ball : Nat) (bits : List Bool)
  /-- The device stops driving a ball for the rest of the frame (R403). -/
  | ballOff (ball : Nat)
  | spdm (path : SpdmPath) (msg : Bytes)
  | doe (body : Bytes)
  /-- The data that a host read of the HDM window or of BAR2 returns. -/
  | readData (data : Bytes)
  | backInvalidate (line : Nat)
  | pmbusRead (addr : Nat)
  | pmbusSet (addr mv : Nat)
  | flash (off : Nat) (data : Bytes)
  /-- Sectors of the flash erased, from an offset. -/
  | flashErase (off len : Nat)
  | otpSvn (svn : Nat)
  | otpEpoch (epoch : Nat)
  deriving DecidableEq, Repr

/-- Units of the fault windows (Table 11.1). -/
inductive WinUnit where
  | pier (span bay phys : Nat)
  | bay (span bay : Nat)
  | girder (span girder : Nat)
  | span (span : Nat)
  | via (link : Nat)
  | lane (port lane : Nat)
  | dir (port : Nat)
  | device
  deriving DecidableEq, Repr

/-- The scopes of an integrity error (Table 10.1): a window unit, and the bitmap of failed checks. -/
structure ErrRec where
  unit : WinUnit
  checks : Nat := 0
  deriving DecidableEq, Repr

/-- Clocks, glides, droop, floor, pacing and energy (section 13). -/
structure Power where
  /-- The reference counter, in 10 ns ticks (R290). -/
  refTicks : Nat := 0
  /-- CK_HK cycles, 1/16 of a core frequency that skips nothing, in 1/16,000 of a cycle. -/
  hk : Nat := 0
  /-- The device-wide counter of executed core cycles (R112). -/
  core : Nat := 0
  /-- Executed core cycles not yet whole, in 1/128 of a cycle. -/
  frac : Nat := 0
  curStep : Nat := 0
  target : Nat := 0
  written : Bool := false
  /-- A slew in progress: true when it goes up; and the Carriageway whose Keystone applied its step, none for a step of an
  idle device (R299, R301). -/
  slew : Option Bool := none
  slewOf : Option Nat := none
  frozen : Bool := false
  /-- Bit d: die d skips alternate cycles (R302, R117). -/
  droop : Nat := 0
  /-- Bit d: die d tripped while it did not skip, and skips 4 core cycles ahead of the dies that mirror it; 0 while no
  detector holds skipping. -/
  tripped : Nat := 0
  vrAlert : Bool := false
  floor : Bool := false
  shutdown : Bool := false
  /-- The orderly shutdown has ended: writes have stopped (Table 13.4). -/
  shutEnded : Bool := false
  /-- Bit d: the clocks of die d are stopped (R291, R322). -/
  clkStopped : Nat := 0
  /-- HBM is in self-refresh (Table 13.4). -/
  selfRefresh : Bool := false
  thermtrip : Bool := false
  capGap : Nat := 0
  thermGap : Nat := 0
  orderStatus : Nat := 0
  reason : Nat := 0
  deriving DecidableEq, Repr

/-- One load-forecast hint (R313), its window in reference ticks. -/
structure Hint where
  level : Nat
  start : Nat
  stop : Nat
  /-- The boost of the hint is in force. -/
  on : Bool := false
  deriving DecidableEq, Repr

/-- Supply rails and energy (R306 to R311).  Energies are exact, in picojoules. -/
structure Energy where
  /-- Base set-points of VDD_CORE0 to VDD_CORE3, mV. -/
  base : List Nat := [800, 800, 800, 800]
  devPj : Nat := 0
  unattrPj : Nat := 0
  /-- Energy sampled since the last split of R307: it counts as unattributed until the split. -/
  openPj : Nat := 0
  cwyPj : Tab Nat := []
  ringPj : Tab Nat := []
  /-- Exempt time of R314 by Carriageway, in picoseconds: its first two kinds. -/
  exempt : Tab Nat := []
  /-- Its third kind: by 64 × Carriageway + target step, the picoseconds executed in bodies below that target times the
  steps they ran below it. -/
  slow : Tab Nat := []
  /-- Device energy at the preceding cap loops, newest first, at most 100. -/
  capHist : List Nat := []
  /-- Cap loops left in which no cap-unreachable event is posted (R311). -/
  capQuiet : Nat := 0
  /-- The latest power sample of each rail, in µW. -/
  railUw : List Nat := []
  hints : Tab Hint := []
  nHints : Nat := 0
  /-- A margin search is due at the next idle time, and the service beat of the last one (R293). -/
  marginDue : Bool := false
  marginBeat : Option Nat := none
  deriving DecidableEq, Repr

/-- The thermal model (R315 to R319).  Temperatures in 1/1,000 °C, by 48 × die + node. -/
structure Thermal where
  node : Tab Int := []
  /-- The activity counters of the last interval, by 6 × (48 × die + node) + kind (R315). -/
  activity : Tab Nat := []
  /-- Node temperatures at the preceding compares, newest first, at most 10. -/
  hist : List (Tab Int) := []
  warn : List Nat := []
  act : Bool := false
  shut : Bool := false
  diodeBad : Nat := 0
  /-- Consecutive readings of a diode more than 15 °C from its node. -/
  diodeMiss : Tab Nat := []
  /-- Consecutive compares in which the node's rate was at or below rate_warn. -/
  calm : Tab Nat := []
  /-- Earlier temperatures of a node that may be the highest of an inspection's look-back, each with the last service beat
  at which it stood, newest first, temperatures rising (R271). -/
  past : Tab (List (Nat × Int)) := []
  /-- Service beat at which the temperature of a node last met the condition of R271. -/
  hotAt : Tab Nat := []
  deriving DecidableEq, Repr

/-- One ring's live part (R365 to R370); its configuration fields are words of the register file. -/
structure Ring where
  state : Nat := 0
  enable : Bool := false
  cause : Nat := 0
  reason : Nat := 0
  sqHead : Nat := 0
  sqTail : Nat := 0
  cqHead : Nat := 0
  cqTail : Nat := 0
  outstanding : Nat := 0
  /-- Descriptors being read: index of the first and how many (R375). -/
  reading : List (Nat × Nat) := []
  /-- Fetched descriptors awaiting validation, oldest first. -/
  fetched : List (Nat × Bytes) := []
  /-- Completions held in their reservations while the ring is in ERROR (R370). -/
  held : List Bytes := []
  /-- Completions written last, newest first, whose writes may still fail at the host: at most 64. -/
  wrote : List Bytes := []
  /-- The device holds the doorbell line in Shared state (R371). -/
  shared : Bool := false
  /-- A read of the doorbell line is out whose data the command that issued it did not bring (R370, R373). -/
  awaits : Bool := false
  deriving DecidableEq, Repr

/-- The event ring (R381, R382). -/
structure EvtRing where
  enable : Bool := false
  head : Nat := 0
  tail : Nat := 0
  lost : Nat := 0
  ovf : Bool := false
  /-- Records dropped since the last events-lost record. -/
  lostSince : Nat := 0
  /-- Waiting records that still precede the events-lost record, once writing has started. -/
  before : Option Nat := none
  seq : Nat := 0
  /-- Records waiting on-die, oldest first, at most 64. -/
  waiting : List Bytes := []
  /-- Records written last, newest first, whose writes may still fail at the host: at most 64. -/
  wrote : List Bytes := []
  deriving DecidableEq, Repr

/-- The host attachment (section 15). -/
structure HostIf where
  perst : Bool := false
  width : Nat := 0
  rate : Nat := 0
  /-- Bit l: CXL lane l has trained, with its transmitter on and its receiver terminated (R426). -/
  lanes : Nat := 0
  /-- The writable address bits of the base address registers, by dword (Table 15.2). -/
  bars : Tab Nat := []
  cacheEn : Bool := false
  memEn : Bool := false
  biEn : Bool := false
  pasidEn : Bool := false
  atsEn : Bool := false
  d3 : Bool := false
  /-- Polling is the mode in effect (R372, R373). -/
  polling : Bool := false
  rings : Tab Ring := []
  evt : EvtRing := {}
  unmasked : List Nat := []
  msixPending : List Nat := []
  /-- Tick of a vector's last message outside a Keystone, and vectors whose message waits for its µs (R384). -/
  vecAt : Tab Nat := []
  vecDue : List Nat := []
  /-- vec_tok messages of the Keystone in course, which follow its status lines (R369). -/
  tokDue : List Nat := []
  /-- Cached ATS translations: PASID and page (R363). -/
  atc : List (Option Nat × Nat) := []
  /-- Window lines that the host may hold (R360). -/
  filter : List Nat := []
  /-- Window lines that were snooped and that the host may yet write back, with a mask of the bytes that the device has
  written since (R360). -/
  snooped : Tab Nat := []
  /-- Protected 2 MiB granules (R361). -/
  prot : List Nat := []
  /-- Tick of the last window-access event of a granule. -/
  winEvt : Tab Nat := []
  hdmEn : Bool := false
  hdmReason : Nat := 0
  landEn : Bool := false
  landReason : Nat := 0
  /-- Writable 32-bit words of the CXL component registers, by offset in their block (R356, R411). -/
  comp : Tab Nat := []
  deriving DecidableEq, Repr

/-- SPDM connection state of one path (R410). -/
structure SpdmConn where
  version : Bool := false
  caps : Bool := false
  algs : Bool := false
  /-- The messages of version, capabilities and algorithms; those of digests and certificates since; and those of
  measurements, from which the transcripts of signatures are made. -/
  agreed : Bytes := []
  certs : Bytes := []
  measures : Bytes := []
  deriving DecidableEq, Repr

/-- The kinds of check that the device runs one at a time (R442). -/
inductive CheckKind where
  | enable (c : Nat)
  | resume (c : Nat)
  | bind (t : Nat)
  deriving DecidableEq, Repr

/-- A running check with the reason it will end with, judged on the state at its start (R442). -/
structure Check where
  kind : CheckKind
  path : Path
  verdict : Nat
  /-- The Trestle frame that the check's outcome answers (R407). -/
  reply : Option THead := none
  /-- Lines of the container and key that the check has snooped and that the host may yet write back (R360). -/
  lines : List Nat := []
  /-- A fleet order of the same slot and subject has superseded the host order that started the check (R176). -/
  mute : Bool := false
  deriving DecidableEq, Repr

/-- Subjects of Table 7.7. -/
inductive Subject where
  | lifecycle (c : Nat)
  | power
  | link
  | other
  deriving DecidableEq, Repr

/-- Boot, recovery, watchdog, Trestle and serialiser state of the Housekeeper (section 16). -/
structure Mgt where
  stage : Nat := 1
  recCause : Nat := 0
  failCause : Nat := 0
  failDie : Nat := 0
  fwSvn : Nat := 0
  hdr : Bytes := []
  imageDigest : Bytes := []
  recFlag : Bool := false
  recBuf : Mem := []
  recImage : Mem := []
  recLen : Nat := 0
  recResult : Nat := 0
  recStat : Nat := 0
  nextChunk : Nat := 0
  received : Nat := 0
  wdogTimeout : Nat := 1000
  expired : Bool := false
  restarts : Nat := 0
  /-- The Housekeeper has been rebooted and has not yet serviced the watchdog (R397). -/
  rebooted : Bool := false
  hkStopped : Bool := false
  hkResult : Nat := 0
  hkDetail : Nat := 0
  /-- The REG_WRITE frame whose words are being applied, and the reason of its first refused word. -/
  fleetReply : Option THead := none
  fleetRes : Option Nat := none
  doeOn : Bool := false
  deriving DecidableEq, Repr

/-- A register access that waits, for a check (R442) or behind earlier ones of its path (R416): its serialiser slot, the
access, and the words that it found locked when it arrived (R414). -/
structure Held where
  slot : Nat
  instr : Instr
  locked : List Nat := []
  deriving DecidableEq, Repr

/-- Trestle chain and serialiser (R399 to R408, R176, R442). -/
structure Chain where
  addr : Option Nat := none
  reversed : Bool := false
  isoDin : Bool := false
  isoDout : Bool := false
  /-- The frames whose driving stopped on contention, as ball and reference tick, within the last 1 s (R403). -/
  contended : List (Nat × Nat) := []
  /-- Latched ALERT causes: bits 0 watchdog, 3 link down, 4 Ledger failure (R408). -/
  alertLatch : Nat := 0
  spdmDoe : SpdmConn := {}
  spdmTrs : SpdmConn := {}
  /-- The host order that executed last: its subject and serialiser slot; and the last slot that each path has taken,
  numbered from 1 (R176). -/
  hostSlot : Option (Subject × Nat) := none
  lastHost : Nat := 0
  lastFleet : Nat := 0
  check : Option Check := none
  /-- Orders held while a check runs (R442), in arrival order. -/
  held : List Held := []
  /-- The slot of the order that executes, and the words that its arrival found locked. -/
  slot : Option Nat := none
  locked : List Nat := []
  /-- Register words captured by each path's last read of a lowest word (R415). -/
  capHost : Tab Word := []
  capFleet : Tab Word := []
  deriving DecidableEq, Repr

/-- What survives PERST_N: OTP fuses and the flash (R391, R394, R398, R258). -/
structure Nv where
  otpSvn : Nat := 0
  epoch : Nat := 0
  /-- The image region of the flash as the device last programmed it; none while it never did. -/
  flashImage : Option Mem := none
  deriving DecidableEq, Repr

/-- The Ledger as the Housekeeper keeps it (R258, R259). -/
structure Ledger where
  boot : Nat := 0
  bad : Nat := 0
  ok : Bool := false
  compacting : Bool := false
  /-- Records in the flash region, oldest first. -/
  log : List Bytes := []
  /-- Records not yet written. -/
  queue : List Bytes := []
  /-- Record number in the region, of 2^17, at which the log begins (R259). -/
  base : Nat := 0
  /-- Service-beat counter: base restored at boot, and core cycle at which it was set. -/
  beatBase : Nat := 0
  beatCore : Nat := 0
  deriving DecidableEq, Repr

/-- A place that a flit of a transfer leaves or reaches: bytes of a memory, a combine port (Bay number, flit of the
block), an entry of the staging buffer (admission slot, token, layer, head, flit), or the engine of a direction. -/
inductive Loc where
  | deck (addr : Nat)
  | sram (addr : Nat)
  | hbm (addr : Nat)
  | port (bay f : Nat)
  | stage (aslot tok layer head f : Nat)
  | link (dir dmember rxbuf tag f : Nat)
  /-- A unit that discards what reaches it (R145, R226). -/
  | sink
  deriving DecidableEq, Repr

/-- A 64-byte flit under way (R108, R114, Table 6.11): the cycle in which it leaves `src`, or, once it has left, the
cycle in which it is delivered. -/
structure Flight where
  cyc : Nat
  src : Option Loc
  dst : Loc
  /-- Cycles from leaving to delivery. -/
  lat : Nat
  data : Bytes := []
  /-- The bytes as they arrive and the link, where the flit's CRC fails on a Viaduct link (R14). -/
  crc : Option (Nat × Bytes) := none
  /-- The Pelind port on which the data came damaged (R87). -/
  taint : Option Nat := none
  aslot : Nat := 0xFFFF
  /-- The window line that its bytes were read from while the host's write-back of it was still to come, and a mask of the
  bytes that were the device's own by then (R360). -/
  owed : Option (Nat × Nat) := none
  deriving DecidableEq, Repr

/-- A flit of a partial-sum block under way to a combine port (R87): arrival cycle, flit number, bytes, the link on
which it failed a CRC and whether that is still to be recorded, and the admission slot that the sender's slot serves. -/
structure Inbound where
  due : Nat
  f : Nat
  data : Bytes
  bad : Option (WinUnit × Bool) := none
  aslot : Nat := 0xFFFF
  deriving DecidableEq, Repr

/-- Gain and offset of a Pier's columns: those of the readings that a pass was given, or free values of a draw. -/
inductive Trims where
  | given (t : Tab (Nat × Int))
  | drawn (n : Nat)
  deriving DecidableEq, Repr

/-- A beat in flight in a Pier (Table 3.3): what was latched at its start. -/
structure Beat where
  start : Nat
  cwy : Nat
  layer : Nat
  slot : Nat
  u : Nat
  aslot : Nat
  /-- Drive integers d_i of rows 0 to 511 (R27). -/
  drive : List Int
  /-- Extracted rows with their x_i (R26). -/
  ext : List (Nat × Int)
  clips : Nat
  wide : Bool := false
  /-- Trims that all conversions of this beat use (R61): column, gain and offset. -/
  trims : Trims := .given []
  /-- Fine values t_j and codes c_j by column, as slots arrive. -/
  fine : Tab Int := []
  code : Tab Int := []
  /-- Columns repaired under R31. -/
  repaired : List Nat := []
  /-- R60 and R229 promise nothing for a reading of this beat. -/
  free : Bool := false
  verdict : Bool := false
  deriving DecidableEq, Repr

/-- Trims of a completed pass that have not taken effect (R282, Table 12.3): against VREF_CAL or the internal reference,
with the service beat, the temperature and the tick of completion. -/
structure StagedTrims where
  trims : Trims
  /-- Draw of the edge-delay, comparator and decision-weight taps. -/
  taps : Nat := 0
  vref : Bool
  beat : Nat
  temp : Int
  tick : Nat
  deriving DecidableEq, Repr

/-- A physical Pier. -/
structure Pier where
  state : Nat := 0
  /-- The programmed image (Table 9.1), sparse. -/
  img : Mem := []
  trims : Trims := .given []
  staged : Option StagedTrims := none
  /-- The draw from which a pass left the edge-delay, comparator and decision-weight taps (Table 12.3), none at reset. -/
  taps : Option Nat := none
  /-- Trims come from a pass against VREF_CAL (R285), the pass's temperature and service beat. -/
  passVref : Bool := false
  passTemp : Int := 0
  passBeat : Option Nat := none
  /-- Calibration beats still to run in the running pass, none when it has none. -/
  calLeft : Option Nat := none
  calVref : Bool := true
  live : Nat := 0
  /-- The core cycle in which the Pier's newest beat of any kind started (R55). -/
  lastStart : Option Nat := none
  /-- Step numbers recorded at multiples of 65,536 live beats, newest first (R244). -/
  marks : List Nat := []
  lastRefresh : Nat := 0
  overdue : Bool := false
  /-- The verified image in the refresh buffer that serves this Pier, the row to write next, the cycle from which it
  may be written, and whether the first read failed (R68, R70). -/
  refreshBuf : Option Mem := none
  refreshRow : Option Nat := none
  /-- First cycle in which a refresh row write or a beat of the device's own may start (R68, R111). -/
  rowFree : Nat := 0
  retried : Bool := false
  /-- Sentinel margin events counted for this Pier (R63). -/
  margins : Nat := 0
  lastInsp : Nat := 0
  starved : Bool := false
  deriving DecidableEq, Repr

/-- One accumulator cell (Table 4.2). -/
structure Cell where
  value : Int := 0
  res : Nat := 0
  sat : Bool := false
  deriving DecidableEq, Repr

/-- A contribution waiting for its cycle: due cycle, slot, admission slot, layer, first column, values (R81). -/
structure Contrib where
  due : Nat
  col0 : Nat := 0
  slot : Nat
  aslot : Nat
  cwy : Nat
  layer : Nat
  vals : List Int
  deriving DecidableEq, Repr

/-- The newest core cycle whose additions a bay corrector has applied: the cells before it, its additions, the
slots cleared in it, and the cells whose addition saturated (R83 to R85). -/
structure CycLog where
  cyc : Nat := 0
  pre : Tab Cell := []
  adds : List Contrib := []
  cleared : List Nat := []
  sats : List Nat := []
  deriving DecidableEq, Repr

/-- A combine in progress (R87): slot, first cycle, Carriageway and layer of its op. -/
structure Combine where
  slot : Nat
  start : Nat
  cwy : Nat
  layer : Nat
  deriving DecidableEq, Repr

/-- A bulk write of one physical Pier (R74): the Pier's state before it, the shadow it writes from, and why. -/
structure Bulk where
  was : Nat := 0
  src : Nat
  cwy : Nat
  /-- 0 load, 1 spare takeover for the logical Pier given, 2 replacement, also in a hold. -/
  why : Nat
  logical : Nat
  /-- It runs: it has one of its Abutment's 32 load buffers (R218). -/
  on : Bool := false
  deriving DecidableEq, Repr

/-- A Bay: its map, its Piers, its bay corrector and its calibration record. -/
structure Bay where
  map : List Nat := List.range 16
  piers : Tab Pier := []
  beats : Tab (List Beat) := []
  /-- Bulk writes by physical Pier: the first is in progress or waits for a load buffer, the others wait (R218). -/
  bulk : List (Nat × Bulk) := []
  /-- The Pier descriptors in force by logical Pier: the owning Carriageway, its local layer and the shadow's HBM
  address (R73). -/
  desc : Tab (Nat × Nat × Nat) := []
  mode : Option Nat := none
  fenced : Bool := false
  /-- Accumulator slots: 32 × 512 cells by 512 × slot + column. -/
  cells : Tab Cell := []
  contribs : List Contrib := []
  /-- Admission slot whose beats a slot last accumulated. -/
  owner : Tab Nat := []
  combine : Option Combine := none
  /-- Flits under way to the combine port. -/
  inbound : List Inbound := []
  /-- Received values of the block in progress, by column, and a CRC failure noted (R87). -/
  rxVals : Tab Int := []
  rxErr : Option (WinUnit × Bool) := none
  sendAt : Option Nat := none
  /-- The slot and cycle of the last drain or send, clears whose cycle is not yet applied, and the newest cycle
  applied (R83, R84). -/
  lastRead : Option (Nat × Nat) := none
  clears : List (Nat × Nat) := []
  log : CycLog := {}
  /-- The core cycle of the Bay's last Pier or ballast beat (R128). -/
  lastBeat : Option Nat := none
  /-- Main-array cycles taken by ops issued and by inspection beats: first cycle and how many (R78). -/
  array : List (Nat × Nat) := []
  calRunning : Bool := false
  calPending : Bool := false
  calFails : Nat := 0
  calTemp : Int := 0
  calFreq : Nat := 0
  calBeat : Option Nat := none
  /-- Service beat and temperature of the Bay's last pass against VREF_CAL (R285). -/
  calVref : Option (Nat × Int) := none
  /-- The temperature or age condition of R283 held when it was last looked at. -/
  calDue : Bool := false
  margins : List Nat := []
  wasCurrent : Bool := false
  /-- Refresh band in force: 0 base, 1 base/2, 2 base/4 (Table 3.8), and those before it with the tick of their end. -/
  band : Nat := 0
  bandHist : List (Nat × Nat) := []
  deriving DecidableEq, Repr

/-- A running Girder routine (R147): the Carriageway and layer of its op, its first cycle and its declared length. -/
structure GRun where
  cwy : Nat
  layer : Nat
  start : Nat
  len : Nat
  deriving DecidableEq, Repr

/-- A Girder (Table 4.8). -/
structure Girder where
  vreg : Tab Nat := []
  sreg : Tab Nat := []
  pred : Tab Bool := []
  prog : Mem := []
  dmem : Mem := []
  run : Option GRun := none
  /-- SECDED-corrected errors of the Girder's storage (R103). -/
  fixed : Nat := 0
  /-- Requantisation carry and the segment shift of the run (R36, R37). -/
  carry : Int := 0
  shift : Nat := 0
  /-- Loop in progress: words and times (R98). -/
  loop : Option (Nat × Nat) := none
  fenced : Bool := false
  lastInsp : Nat := 0
  starved : Bool := false
  deriving DecidableEq, Repr

/-- Recovery levels (Table 11.3). -/
inductive Level where
  | span | link | job | bay | pier
  deriving DecidableEq, Repr

/-- Actions of the recovery queue. -/
structure Demand where
  level : Level
  unit : WinUnit
  deriving DecidableEq, Repr

/-- One window event (R254): its unit, service-beat stamp and cause. -/
structure WinEvt where
  unit : WinUnit
  stamp : Nat
  cause : Nat
  deriving DecidableEq, Repr

/-- A fence decided and not yet in effect (R260): its unit and spare. -/
structure PendFence where
  unit : WinUnit
  spare : Option Nat := none
  spareDone : Bool := false
  deriving DecidableEq, Repr

/-- Faults, recovery and inspection (section 11). -/
structure Ras where
  haltSafe : Bool := false
  evts : List WinEvt := []
  /-- Units that gained events in the step run just closed or at once, to be evaluated. -/
  demands : List Demand := []
  running : List Demand := []
  queue : List Demand := []
  escal : Nat := 0
  pend : List PendFence := []
  spanFenced : Nat := 0
  lostLinks : List Nat := []
  dirsDown : List Nat := []
  /-- Carriageways that a written RAS_WIN_CFG waits for, each with the word in force for it until its Keystone (R257). -/
  cfgOf : Tab Nat := []
  /-- Fence clears whose inspections run or wait, oldest first (R274). -/
  clr : List WinUnit := []
  /-- Service beat since which inspection periods are tracked (R273, RAS_INSP_CFG.enable). -/
  inspFrom : Nat := 0
  deriving DecidableEq, Repr

/-- The reference chain (Table 12.1, R276, R277). -/
structure Vref where
  sample : Int := 0
  count : Nat := 0
  bad : Nat := 0
  good : Nat := 0
  fault : Nat := 0
  faulted : Bool := false
  faults : Nat := 0
  internal : Bool := false
  refOk : Bool := false
  /-- Good samples since reset, up to 100. -/
  goods : Nat := 0
  /-- Bays that have not yet completed a pass against VREF_CAL since the fault cleared (R288). -/
  todo : List Nat := []
  /-- Taps of the Span references, and the ratio of the internal reference to VREF_CAL at the last good sample, in
  1/65,536; 0 before the first (Table 12.1). -/
  taps : Tab Nat := []
  ratio : Nat := 0
  deriving DecidableEq, Repr

/-- A Pelind transfer waiting to leave: what PL_SEND named, and the flits left. -/
structure Xfer where
  cwy : Nat
  dir : Nat
  dmember : Nat
  rxbuf : Nat
  tag : Nat
  addr : Nat
  flits : Nat
  sent : Nat := 0
  /-- Bytes that have left the Abutment's SRAM (Table 6.11). -/
  data : Bytes := []
  die : Die
  deriving DecidableEq, Repr

/-- One Pelind port (Tables 14.4, 14.5). -/
structure Port where
  state : Nat := 0
  laneUp : Nat := 0
  spareUsed : Bool := false
  spareFor : Nat := 15
  nbrCoord : Nat × Nat × Nat := (0, 0, 0)
  nbrMap : Nat := 0
  proposal : Nat := 7
  lat : Nat := 0
  nbrTag : Nat := 0
  misrouted : Nat := 0
  authFail : Nat := 0
  /-- Training phase reached: 0 none, 1 light, 2 lanes, 3 identity. -/
  phase : Nat := 0
  /-- Lane named by a lane-change frame that both ends will move (R334). -/
  moving : Option Nat := none
  /-- Tick of a lane's last event, and the bytes corrected on a lane in the last 1 ms, with their ticks (R333). -/
  laneEvt : Tab Nat := []
  laneFix : Tab (List (Nat × Nat)) := []
  /-- Owners of slots 0 to 62 (R326). -/
  slots : Tab Nat := []
  xfers : List Xfer := []
  /-- Frames waiting: forwarded and Keystone frames by Carriageway, with whether they leave in through slots, on a closed
  direction (R338, R346), and control payloads. -/
  fwd : List (Nat × Bool × Bytes) := []
  ctl : List Bytes := []
  /-- Through frames sent under the grant in this epoch (R347). -/
  thruSent : Nat := 0
  /-- Tick of the last identity frame sent (R331), and exchanged roles of the fibre positions (R329). -/
  lastId : Nat := 0
  swapped : Bool := false
  deriving DecidableEq, Repr

/-- A job's link key and counters on this member (R341, R343). -/
structure JobKey where
  state : Nat := 0
  key : Bytes := []
  /-- Next counter to send by 4 × port + vc. -/
  send : Tab Nat := []
  /-- Last counter accepted by source: 32 × smember + 4 × port + vc. -/
  recv : Tab Nat := []
  /-- Stored vote and release frames for retransmission, by frame index (R352). -/
  sent : Tab (Nat × Bytes) := []
  deriving DecidableEq, Repr

/-- A recorded arrival (R340): run parity, receive buffer, tag and completing cycle. -/
structure ArrRec where
  parity : Nat
  rxbuf : Nat
  tag : Nat
  cyc : Option Nat
  port : Nat
  deriving DecidableEq, Repr

/-- Per-slot counts of a run (Table 14.6). -/
structure Counts where
  sentPass : Nat := 0
  csumPass : Nat := 0
  csumSkip : Nat := 0
  gsumPass : Nat := 0
  gsumSkip : Nat := 0
  sampPass : Nat := 0
  clips : Nat := 0
  unrep : Nat := 0
  deriving DecidableEq, Repr

/-- A vote (Table 14.6). -/
structure Vote where
  step : Nat := 0
  aborts : Nat := 0
  bad : Bool := false
  stopOrder : Bool := false
  accRed : Bool := false
  glideBusy : Bool := false
  takeover : Bool := false
  holdReq : Bool := false
  holdDone : Bool := false
  stopCause : Nat := 0
  target : Nat := 0xFF
  gap : Nat := 0
  holdLayer : Nat := 0xFFFF
  grants : Nat := 0
  denials : Nat := 0
  energy : Nat := 0
  spReady : List Nat := []
  counts : Tab Counts := []
  deriving DecidableEq, Repr

/-- An admission record (Table 14.7). -/
structure Adm where
  slot : Nat
  phase : Nat
  handle : Nat
  first : Nat
  tokens : Nat
  spandrel : Option Nat := none
  node : Nat := 0xFFFFFFFF
  topk : Nat := 0
  sampled : Bool := false
  temp : Nat := 0
  vars : List Bytes := []
  deriving DecidableEq, Repr

/-- A release (Table 14.7). -/
structure Release where
  step : Nat := 0
  aborts : Nat := 0
  good : Bool := false
  stop : Bool := false
  glide : Bool := false
  glideUp : Bool := false
  holdGranted : Bool := false
  barrier : Bool := false
  failed : Bool := false
  idle : Bool := false
  shape : Nat := 0
  stopCause : Nat := 0
  gap : Nat := 0
  holdLayer : Nat := 0xFFFF
  commit : List Nat := []
  adm : List Adm := []
  spCurrent : List Nat := []
  spFree : List Nat := []
  deriving DecidableEq, Repr

/-- Lifecycle of a Carriageway (Table 7.1). -/
inductive CState where
  | disabled | checking | starting | running | stopping | stopped
  deriving DecidableEq, Repr

/-- Status fields of a Carriageway's window. -/
structure Life where
  state : CState := .disabled
  enable : Bool := false
  step : Nat := 0
  stopCause : Nat := 0
  orderStatus : Nat := 0
  reason : Nat := 0
  aborts : Nat := 0
  buildId : Bytes := []
  keyDigest : Bytes := []
  replays : Nat := 0
  /-- The stop cause 3 to 5 to be voted at the next Keystone (R154). -/
  stopPend : Nat := 0
  started : Bool := false
  /-- Good seals since enable: mod 2 it names the carried bank in force (R125, R244). -/
  sealed : Nat := 0
  /-- The next descriptor sequence number (R165). -/
  seq : Nat := 0
  farKey : Bytes := []
  farCtr : Nat := 0
  /-- The path of the order whose check runs or ran last. -/
  path : Path := .host
  deriving DecidableEq, Repr

/-- The run of a Carriageway: body, wait, Keystone (section 5). -/
structure Run where
  inBody : Bool := false
  start : Nat := 0
  stall : Nat := 0
  shape : Nat := 0
  /-- Releases since the job's first that have started a body, mod 2 (R340). -/
  parity : Nat := 0
  replay : Bool := false
  /-- A wait that stalls: its cycle in the body and the arrivals named so far. -/
  wait : Option (Nat × List Arrival) := none
  /-- The streams left the body at a wait limit or a fetch error; the cycle of the latest last use. -/
  leaving : Bool := false
  lastUse : Nat := 0
  deadDies : List Die := []
  ended : List Die := []
  /-- Integrity errors since the vote last sent, and those of the run whose vote is out (R120). -/
  errs : List ErrRec := []
  voteErrs : List ErrRec := []
  /-- Units that had an event of this run already, outside `errs`: at most one for a run (R254), evaluated at its Keystone
  (R255). -/
  counted : List WinUnit := []
  accRed : Bool := false
  adm : List Adm := []
  grants : List Nat := []
  denials : List Nat := []
  counts : Tab Counts := []
  /-- Outlier clips and unrepaired saturations by layer, for R41. -/
  layClips : Tab Nat := []
  laySats : Tab Nat := []
  sel : Tab (List Nat) := []
  /-- On the lead, the candidate tokens of each decode slot at the admission snapshot (R173). -/
  cands : Tab (List Nat) := []
  /-- The op buffers (R139): die, block number and the block's 256 op words, newest first. -/
  buf : List (Die × Nat × List Nat) := []
  /-- Ops that each die's stream has passed, and the newest cycle in which one was issued (R141). -/
  pos : Tab Nat := []
  now : Nat := 0
  /-- The core cycle of the last release, or of the end of the slew that it applied, from which its pacing gap counts
  (R310); and the reference tick of the release (R314). -/
  gapFrom : Nat := 0
  relRef : Nat := 0
  gap : Nat := 0
  deriving DecidableEq, Repr

/-- The Keystone exchange of a Carriageway. -/
structure Key where
  /-- A Keystone is in progress: own vote formed. -/
  own : Option Vote := none
  sent : Bool := false
  /-- On the lead: the votes of the whole job merged. -/
  merged : Vote := {}
  kids : Tab (List Bytes) := []
  kidsDone : List Nat := []
  /-- Children of whose stream a frame has failed (R235). -/
  kidBad : List Nat := []
  /-- The release stream by frame index, the index of its last frame, and the frames asked for again (R351, R352). -/
  relFrames : Tab Bytes := []
  relLast : Option Nat := none
  relNak : List Nat := []
  release : Option Release := none
  /-- Kind of the Keystone: 0 step, 1 idle, 2 takeover, 3 hold. -/
  kind : Nat := 0
  /-- Energy since the previous vote and energy carried by runs that did not commit (R308). -/
  votePj : Nat := 0
  carryPj : Nat := 0
  /-- A release without a body has arrived: the Carriageway idles, holds, or waits for a takeover. -/
  idle : Bool := false
  barrier : Bool := false
  ready : Bool := false
  /-- Units whose pending fence the vote took into account. -/
  fences : List WinUnit := []
  /-- Descriptor validations at the admission snapshot: later orders are not pending (R15, Table 7.6). -/
  snap : Nat := 0
  /-- Candidate tokens of the admission that the release carries, by slot. -/
  cands : Tab (List Nat) := []
  deriving DecidableEq, Repr

/-- Wide-mode state of one layer (R42, R46): the last covered step and consecutive denials. -/
structure Wide where
  last : Option Nat := none
  denied : Nat := 0
  deriving DecidableEq, Repr

/-- A prefix node (Table 8.3). -/
structure Node where
  hash : Bytes := []
  parent : Nat := 0xFFFFFFFF
  frame : Nat := 0xFFFFFFFF
  pos : Nat := 0
  refs : Nat := 0
  lastUse : Nat := 0
  toks : List Nat := []
  deriving DecidableEq, Repr

/-- An open block (R193): request, page ordinal, block of the frame, valid mask, bytes. -/
structure OpenBlk where
  handle : Nat
  page : Nat
  blk : Nat
  mask : Nat := 0
  data : Mem := []
  /-- The write into the frame is issued and not yet visible. -/
  writing : Bool := false
  deriving DecidableEq, Repr

/-- A staged provisional entry (R191). -/
structure Staged where
  aslot : Nat
  tok : Nat
  layer : Nat
  head : Nat
  data : Bytes
  deriving DecidableEq, Repr

/-- KV state of a Carriageway on this member (section 8). -/
structure Kv where
  /-- Frames in use at each ring position: position and frame numbers. -/
  used : Tab (List Nat) := []
  nodes : Tab Node := []
  open_ : List OpenBlk := []
  staged : List Staged := []
  /-- Table-region bytes in use, by the lead's accounting (R186). -/
  chunks : Nat := 0
  /-- Far-block metadata in bytes, by ring position (R186). -/
  meta_ : Tab Nat := []
  /-- Chunks of the table region by request: the root chunk, then its entry chunks (R185). -/
  chunkOf : Tab (List Nat) := []
  /-- On a member that is not the lead, the nodes that a request's lookup has pinned before its first chunk (R198). -/
  pins : Tab (List Nat) := []
  /-- Far blocks' tags and counters, by handle, page and block (R202). -/
  far : List (Nat × Nat × Nat × Nat × Bytes) := []
  deriving DecidableEq, Repr

/-- A staged or current layer of weights (R215). -/
structure LayerW where
  model : Nat
  /-- M of its bundle, and the table of its layers' digests (R211). -/
  models : Nat := 0
  table : List Bytes := []
  digest : Bytes
  version : Nat
  /-- Shadows: span, bay, logical Pier and HBM address. -/
  piers : List ((Nat × Nat × Nat) × Nat) := []
  /-- HBM blocks of the layer: address and length. -/
  blocks : List (Nat × Nat) := []
  deriving DecidableEq, Repr

/-- A bundle being loaded (R214). -/
structure Load where
  ring : Nat
  dindex : Nat
  tag : Bytes
  off : Nat
  len : Nat
  hdr : Bytes
  key : Bytes
  chunk : Nat := 0
  /-- Record-stream bytes authenticated and not yet parsed. -/
  rest : Bytes := []
  /-- The first failure of a record's checks, and whether the record stream cannot be followed any further. -/
  code : Nat := 0
  lost : Bool := false
  /-- Every record of the layer in stream order, by model layer, for its digest. -/
  recs : List (Nat × Bytes) := []
  layers : Tab LayerW := []
  /-- The bundle is accepted; its bulk writes run. -/
  accepted : Bool := false
  tenant : Nat := 0
  slot : Nat := 0
  dest : Nat := 0
  deriving DecidableEq, Repr

/-- A pending REPLACE_LAYER (R216). -/
structure Replace where
  ring : Nat
  dindex : Nat
  tag : Bytes
  first : Nat
  count : Nat
  done : Nat := 0
  /-- The reason with which it will be refused: 0 none, 0x1B, 0x72 (R220). -/
  code : Nat := 0
  deriving DecidableEq, Repr

/-- Weights of a Carriageway (section 9). -/
structure Weights where
  wstate : Nat := 0
  badLayer : Nat := 255
  holdLayer : Nat := 255
  keyId : Bytes := []
  digests : Tab Bytes := []
  versions : Tab Nat := []
  nModel : Nat := 0
  layers : Tab LayerW := []
  staged : Tab LayerW := []
  load : Option Load := none
  /-- Accepted bundle loads that wait for the one in progress, oldest first. -/
  loadWait : List Load := []
  spLoads : List Load := []
  replace : Option Replace := none
  deriving DecidableEq, Repr

/-- A Carriageway. -/
structure Cwy where
  life : Life := {}
  run : Run := {}
  key : Key := {}
  kv : Kv := {}
  w : Weights := {}
  wide : Tab Wide := []
  jk : JobKey := {}
  arrivals : List ArrRec := []
  /-- Flits of its transfers under way, in the order of their cycles. -/
  flights : List Flight := []
  /-- Bays kept running by ballast at the end of a body (R129), by 256 × span + bay. -/
  warm : List Nat := []
  ramped : Bool := false
  /-- Bays that the device's own beats have brought into the running state in the current ramp window (R128, R280). -/
  heated : Nat := 0
  /-- Ramp share in force while it ramps out of a disable (R128). -/
  share : Nat := 0
  deriving DecidableEq, Repr

/-- An order pending on a request (Table 7.6): ring, descriptor index, tag, TTL, validation number. -/
structure Pending where
  ring : Nat
  dindex : Nat
  tag : Bytes
  ttl : Nat
  num : Nat
  deriving DecidableEq, Repr

/-- Phases of a request (Table 7.5). -/
inductive Phase where
  | queued | prefill | decode | paused
  deriving DecidableEq, Repr

/-- What SUBMIT carries (Table 15.5). -/
structure Params where
  ring : Nat
  dindex : Nat
  tag : Bytes
  prompt : Nat
  promptLen : Nat
  maxNew : Nat
  stops : List Nat
  sampled : Bool
  temp : Nat
  topk : Nat
  seed : Bytes
  drawn : Bool
  draft : Bool
  buf : Nat
  deriving DecidableEq, Repr

/-- Certificate record of a request as it grows (Table 10.3). -/
structure CertRec where
  counts : Counts := {}
  replays : Nat := 0
  seals : Nat := 0
  grants : Nat := 0
  denials : Nat := 0
  /-- Wide runs: first token, tokens, grants, denials (R247). -/
  runs : List (Nat × Nat × Nat × Nat) := []
  runTrunc : Bool := false
  vchg : List (Nat × Nat × Nat) := []
  vTrunc : Bool := false
  first : Option Nat := none
  accRed : Bool := false
  rebuilt : Bool := false
  spec : Bool := false
  wset : Bytes := []
  versions : List Nat := []
  spDigest : Bytes := []
  spVersion : Nat := 0
  deriving DecidableEq, Repr

/-- A request: its Tollhouse entry. -/
structure Req where
  cwy : Nat
  tenant : Nat
  /-- Tracked on a member that is not the job's lead, from the lead's releases (R156). -/
  tracked : Bool := false
  seq : Nat
  par : Params
  phase : Phase := .queued
  /-- The phase to return to from PAUSED. -/
  back : Phase := .queued
  /-- Prompt tokens read from host memory so far (from position 0), and those of the resident chunk. -/
  ptoks : List Nat := []
  chunk : List Nat := []
  ready : Bool := false
  /-- Committed positions. -/
  len : Nat := 0
  gen : List Nat := []
  spandrel : Option Nat := none
  /-- Prefix lookup: matched nodes in page order, whether it still runs, and pages bound. -/
  hits : List Nat := []
  lookup : Bool := false
  prefix_ : Nat := 0
  inserting : Bool := true
  /-- Reservation left at each ring position; none before it is taken (R187). -/
  resv : Option (Tab Nat) := none
  /-- The whole reservation as it was taken, per ring position (R188), and whether its page-table chunks are taken (R186). -/
  resv0 : Nat := 0
  chunked : Bool := false
  pages : Tab (Nat × Nat) := []
  cancel : Option Pending := none
  pause : Option Pending := none
  resume : Option Pending := none
  hostFail : Bool := false
  ttl : Nat := 0
  ttlFrom : Nat := 0
  lapsed : Bool := false
  /-- Blocks still to be acknowledged by a copy-out, or to be read by a restore: page, block.  The lead lists those of
  every ring position. -/
  copy : List (Nat × Nat) := []
  copying : Bool := false
  /-- Its copy-out is complete, and no restore has ended since. -/
  out : Bool := false
  /-- Far frame of each page that holds one, and the new frame of each page being restored. -/
  farOf : Tab Nat := []
  newOf : Tab Nat := []
  restore : List (Nat × Nat) := []
  restoring : Bool := false
  retried : List (Nat × Nat) := []
  /-- A block has failed twice: the request is rebuilt at the next Keystone (R205). -/
  lost : Bool := false
  acting : Option Pending := none
  companion : Option Nat := none
  rebuilding : Bool := false
  cert : CertRec := {}
  deriving DecidableEq, Repr

/-- A bound or unbound tenant slot; its limits are words of the register file. -/
structure Tenant where
  bound : Bool := false
  unbinding : Bool := false
  reason : Nat := 0
  keyState : Nat := 0
  modelKey : Option (Bytes × Bytes) := none
  spKey : Option (Bytes × Bytes) := none
  spEn : Bool := false
  spandrel : Nat := 0
  /-- Far frames in use, by ring position. -/
  far : Tab (List Nat) := []
  deriving DecidableEq, Repr

/-- A Spandrel slot (Table 9.6). -/
structure Spandrel where
  state : Nat := 0
  tenant : Nat := 0
  cwy : Nat := 0
  lenU : Nat := 0
  base : Nat := 0
  version : Nat := 0
  digest : Bytes := []
  pins : Nat := 0
  /-- LOAD_SPANDREL awaiting its switch: ring, index, tag, and its number among the descriptors validated. -/
  order : Option (Nat × Nat × Bytes) := none
  num : Nat := 0
  /-- Retirement takes effect at the next good seal (R225), and its RETIRE_SPANDRELs then complete. -/
  retiring : Bool := false
  retireOrd : List (Nat × Nat × Bytes) := []
  deriving DecidableEq, Repr

/-- A certificate or notice with its owner: tenant for a certificate, Carriageway for a notice. -/
structure Leaf where
  serial : Nat
  bytes : Bytes
  notice : Bool
  owner : Nat
  deriving DecidableEq, Repr

/-- A closed window with its record (Table 10.5), none until it is signed or written unsigned. -/
structure Window where
  num : Nat
  leaves : List Leaf
  rec_ : Option Bytes := none
  deriving DecidableEq, Repr

/-- A FETCH_CERT waiting for its window: ring, index, tag, sel, key, dest, cap. -/
structure Fetch where
  ring : Nat
  dindex : Nat
  tag : Bytes
  sel : Nat
  key : Nat
  dest : Nat
  cap : Nat
  deriving DecidableEq, Repr

/-- The certificate store and the signer (R248 to R253). -/
structure Certs where
  serial : Nat := 0
  window : Nat := 0
  leaves : List Leaf := []
  closed : List Window := []
  prev : Bytes := List.replicate 32 0
  lastSigned : Nat := 0
  unsigned : Nat := 0
  retract : Nat := 0
  signerOk : Bool := false
  waiting : List Fetch := []
  /-- FETCH_CERTs whose writes are issued and whose completion follows (R364), with the bytes written. -/
  done : List (Fetch × Nat) := []
  deriving DecidableEq, Repr

/-- The XN8-384. -/
structure State where
  pw : Power := {}
  en : Energy := {}
  thm : Thermal := {}
  /-- Written words of the register file, by BAR0 offset; an unlisted word stands at its reset value. -/
  words : Tab Word := []
  host : HostIf := {}
  mgt : Mgt := {}
  chain : Chain := {}
  nv : Nv := {}
  ledger : Ledger := {}
  bays : Tab Bay := []
  girders : Tab Girder := []
  ras : Ras := {}
  vref : Vref := {}
  /-- Base refresh intervals in force before the present one, with the tick of their end, newest first (R71). -/
  baseHist : List (Nat × Nat) := []
  refreshFail : Nat := 0
  refreshRetry : Nat := 0
  /-- Corrected HBM errors by stack (R234). -/
  hbmFixed : Tab Nat := []
  /-- By Span, the Pier (17 × Bay + Pier) whose image the loader read last (R68). -/
  refreshAt : Tab Nat := []
  /-- Abutment SRAM units (byte address / 64) that hold bytes of a Pelind frame that failed its checks, and the port. -/
  taint : Tab Nat := []
  ports : Tab Port := []
  tenants : Tab Tenant := []
  spandrels : Tab Spandrel := []
  cwys : Tab Cwy := []
  reqs : Tab Req := []
  /-- Descriptor validations so far: the order of pending orders. -/
  nOrders : Nat := 0
  certs : Certs := {}
  /-- Free values drawn so far: the model's own counter, no register of the device. -/
  draws : Nat := 0
  hbm : Mem := []
  /-- Deck SRAM: byte address ((64 × span + group) × 20,480 + unit) × 64 + byte. -/
  deck : Mem := []
  /-- Abutment SRAM: byte address (die − 6) × 96 MiB + 64 × unit + byte. -/
  sram : Mem := []
  pending : List Instr := []
  out : List Output := []
  deriving DecidableEq, Repr

/-- Why a step can stop.  The only stop of this model is an access to HBM that does not exist. -/
inductive Fault where
  /-- Raised by HBM_RD, HBM_WR, HDM_ACCESS and BAR2_ACCESS at an HBM address from 384 GiB on, which
  R11 says does not exist.  Safe: the model stops where the spec gives no effect. -/
  | hbmOutOfRange (addr : Nat)
  deriving DecidableEq, Repr

/-- Why the model gives a command no meaning. -/
inductive Refusal where
  /-- Raised by the dispatcher for a command that has no meaning in the model yet.  Safe. -/
  | notModelled (mnemonic : String)
  deriving DecidableEq, Repr

/-- The machine right after PERST_N deasserts (R7, R385, R420): stage ROM in progress, every register
at the reset value of its card, every queue and memory empty. -/
def State.reset : State := {}

end Sys2Proof.Machine
end

