-- ==== Sys2Proof/Machine/Ops.lean ====
section
/-! DEFINITION. The named operations over tables, byte strings, memories, outputs and the parts of the
state, and the ticking of the two time bases. -/

namespace Sys2Proof.Machine

/-! ### Tables -/

/-- The entry of number k, if the table lists it. -/
def tget {α : Type} (t : Tab α) (k : Nat) : Option α :=
  match t with
  | [] => none
  | (j, v) :: r => if j = k then some v else tget r k

/-- The entry of number k, or the default where the table does not list it. -/
def tgetD {α : Type} (t : Tab α) (k : Nat) (d : α) : α := (tget t k).getD d

/-- The table with the entry of number k set. -/
def tset {α : Type} (t : Tab α) (k : Nat) (v : α) : Tab α :=
  match t with
  | [] => [(k, v)]
  | (j, w) :: r => if k < j then (k, v) :: (j, w) :: r else if j = k then (k, v) :: r else (j, w) :: tset r k v

/-- The table without the entry of number k. -/
def tdel {α : Type} (t : Tab α) (k : Nat) : Tab α := t.filter (fun e => e.1 != k)

/-- The table with the entry of number k changed. -/
def tmod {α : Type} (t : Tab α) (k : Nat) (d : α) (f : α → α) : Tab α := tset t k (f (tgetD t k d))

/-! ### Byte strings and bit fields -/

/-- n bytes of a number, little-endian (R3). -/
def leBytes (n v : Nat) : Bytes := (List.range n).map (fun i => BitVec.ofNat 8 (v >>> (8 * i)))

/-- The number that bytes spell, little-endian (R3). -/
def leNat (bs : Bytes) : Nat :=
  match bs with
  | [] => 0
  | b :: r => b.toNat + 256 * leNat r

/-- n bytes of a byte string from offset o; bytes beyond its end read 0. -/
def slice (bs : Bytes) (o n : Nat) : Bytes :=
  let x := (bs.drop o).take n
  x ++ List.replicate (n - x.length) 0

/-- The little-endian number in bytes o to o + n − 1. -/
def getLe (bs : Bytes) (o n : Nat) : Nat := leNat (slice bs o n)

/-- n zero bytes. -/
def zeros (n : Nat) : Bytes := List.replicate n 0

/-- Every byte of the range is 0. -/
def allZero (bs : Bytes) : Bool := bs.all (fun b => b == 0)

/-- A byte string with bytes from offset o replaced. -/
def putBytes (bs : Bytes) (o : Nat) (new : Bytes) : Bytes :=
  slice bs 0 o ++ new ++ bs.drop (o + new.length)

/-- Field of n bits from bit lo of a number. -/
def fld (w lo n : Nat) : Nat := (w >>> lo) % 2 ^ n

/-- Bit i of a number. -/
def bit (w i : Nat) : Bool := fld w i 1 == 1

/-- A bit as a number. -/
def b2n (b : Bool) : Nat := if b then 1 else 0

/-- A byte string zero-padded to a multiple of n bytes. -/
def padTo (n : Nat) (bs : Bytes) : Bytes := bs ++ zeros ((n - bs.length % n) % n)

/-- The two's-complement integer in the low n bits. -/
def sext (n v : Nat) : Int := let x := v % 2 ^ n; if x < 2 ^ (n - 1) then (x : Int) else (x : Int) - 2 ^ n

/-- The low n bits of an integer in two's complement. -/
def uint (n : Nat) (v : Int) : Nat := (v % (2 ^ n : Int)).toNat

/-- Integers clamped to a range (section 2, procedure clamp). -/
def clampI (v lo hi : Int) : Int := max lo (min hi v)

/-- Numbers stored as the nearer limit of a range. -/
def clampN (v lo hi : Nat) : Nat := max lo (min hi v)

/-- Addition that saturates at 2^n − 1. -/
def satAdd (n a b : Nat) : Nat := min (2 ^ n - 1) (a + b)

/-- ⌈a / b⌉. -/
def ceilDiv (a b : Nat) : Nat := (a + b - 1) / b

/-! ### Memories in canonical form -/

/-- The byte at an address; an unlisted address reads 0. -/
def memRead (m : Mem) (a : Nat) : Byte :=
  match m with
  | [] => 0
  | (b, v) :: r => if b = a then v else if a < b then 0 else memRead r a

/-- The memory with one byte written, in canonical form. -/
def memWrite (m : Mem) (a : Nat) (v : Byte) : Mem :=
  match m with
  | [] => if v = 0 then [] else [(a, v)]
  | (b, w) :: r =>
    if a < b then (if v = 0 then (b, w) :: r else (a, v) :: (b, w) :: r)
    else if a = b then (if v = 0 then r else (a, v) :: r)
    else (b, w) :: memWrite r a v

/-- Every address of the list lies above a bound and every byte is not 0, addresses rising. -/
def memWfFrom (lo : Nat) (m : Mem) : Bool :=
  match m with
  | [] => true
  | (a, v) :: r => decide (lo ≤ a) && decide (v ≠ 0) && memWfFrom (a + 1) r

/-- The canonical form of a memory. -/
def memWf (m : Mem) : Bool := memWfFrom 0 m

/-- n bytes from an address. -/
def memBytes (m : Mem) (a n : Nat) : Bytes := (List.range n).map (fun i => memRead m (a + i))

/-- A byte string written from an address. -/
def memPut (m : Mem) (a : Nat) (bs : Bytes) : Mem :=
  match bs with
  | [] => m
  | b :: r => memPut (memWrite m a b) (a + 1) r

/-- The memory with the bytes of a range zeroed. -/
def memZero (m : Mem) (a n : Nat) : Mem := m.filter (fun e => !(a ≤ e.1 && e.1 < a + n))

/-- The entries of a range, moved to start at address 0. -/
def memSlice (m : Mem) (a n : Nat) : Mem :=
  (m.filter (fun e => a ≤ e.1 && e.1 < a + n)).map (fun e => (e.1 - a, e.2))

/-- The little-endian number of n bytes at an address. -/
def memLe (m : Mem) (a n : Nat) : Nat := leNat (memBytes m a n)

/-- Bytes of HBM: 384 GiB (R11). -/
def hbmSize : Nat := 384 * 2 ^ 30

/-- Whether an HBM access lies inside the address space of R11. -/
def hbmIn (a n : Nat) : Bool := decide (a + n ≤ hbmSize)

/-- Bytes of one Abutment's SRAM: 96 MiB. -/
def sramSize : Nat := 96 * 2 ^ 20

/-- Byte address of a Deck local address: group in [20:15], 64-byte unit in [14:0]. -/
def deckAddr (die laddr : Nat) : Nat := ((die * 64 + laddr / 32768 % 64) * 20480 + laddr % 32768) * 64

/-- Byte address of an Abutment SRAM unit. -/
def sramAddr (die unit : Nat) : Nat := (die - 6) * sramSize + unit * 64

/-- The stack that owns an HBM address (R11). -/
def stackOf (a : Nat) : Nat := a / 4096 % 8

/-- The Abutment that owns a stack (R11). -/
def abutOf (stack : Nat) : Die := if stack < 4 then dieA else dieB

/-! ### Fused values and the CRC -/

/-- Fused Fmax of Span s as a frequency step, 32 to 48 (R292). -/
def fmax (sp : Nat) : Nat := 32 + Config.fmaxFuse sp % 17

/-- One step of the CRC-32C register over one bit, reflected (R208). -/
def crcBit (c : Nat) : Nat := if c % 2 = 1 then (c / 2) ^^^ 0x82F63B78 else c / 2

/-- One step of the CRC-32C register over one byte. -/
def crcByte (c : Nat) (b : Byte) : Nat :=
  crcBit (crcBit (crcBit (crcBit (crcBit (crcBit (crcBit (crcBit (c ^^^ b.toNat))))))))

/-- CRC-32C of a byte string (R208). -/
def crc32c (bs : Bytes) : Nat := bs.foldl crcByte 0xFFFFFFFF ^^^ 0xFFFFFFFF

/-! ### Trestle frames on the wire (R400, Table 16.4) -/

/-- The frame bytes before the payload. -/
def trestleHead (dst src typ seq len : Nat) : Bytes :=
  leBytes 1 dst ++ leBytes 1 src ++ leBytes 1 typ ++ leBytes 1 seq ++ leBytes 2 len

/-- The frame bytes of a frame that the device forms, its CRC-32C last. -/
def trestleFrame (dst src typ seq : Nat) (payload : Bytes) : Bytes :=
  let b := trestleHead dst src typ seq payload.length ++ payload
  b ++ leBytes 4 (crc32c b)

/-- Bits of a byte string, least significant first. -/
def lsbBits (bs : Bytes) : List Bool := bs.flatMap (fun b => (List.range 8).map b.getLsbD)

/-- Bits with an opposite bit after every five equal ones; an inserted bit counts towards the next five (DEDUCED, log
196: a flag cannot then occur within a frame). -/
def stuffBits (prev : Bool) (run : Nat) : List Bool → List Bool
  | [] => []
  | b :: bs =>
    let r := if b == prev then run + 1 else 1
    if r = 5 then b :: (!b) :: stuffBits (!b) 1 bs else b :: stuffBits b r bs

/-- A frame on the wire: two flags, the stuffed frame bytes, one flag. -/
def trestleBits (frame : Bytes) : List Bool :=
  let flag := lsbBits [0x7E]
  flag ++ flag ++ stuffBits false 0 (lsbBits frame) ++ flag

/-! ### Parts of the state -/

def State.cwy (s : State) (c : Nat) : Cwy := tgetD s.cwys c {}
def State.modCwy (s : State) (c : Nat) (f : Cwy → Cwy) : State := { s with cwys := tmod s.cwys c {} f }
def State.modLife (s : State) (c : Nat) (f : Life → Life) : State := s.modCwy c (fun x => { x with life := f x.life })
def State.modRun (s : State) (c : Nat) (f : Run → Run) : State := s.modCwy c (fun x => { x with run := f x.run })
def State.modKey (s : State) (c : Nat) (f : Key → Key) : State := s.modCwy c (fun x => { x with key := f x.key })
def State.modKv (s : State) (c : Nat) (f : Kv → Kv) : State := s.modCwy c (fun x => { x with kv := f x.kv })
def State.modW (s : State) (c : Nat) (f : Weights → Weights) : State := s.modCwy c (fun x => { x with w := f x.w })
def State.modJk (s : State) (c : Nat) (f : JobKey → JobKey) : State := s.modCwy c (fun x => { x with jk := f x.jk })
/-- Number of a Bay over the device: 256 × Span + Bay. -/
def bayNo (span bay : Nat) : Nat := 256 * span + bay
def State.bay (s : State) (b : Nat) : Bay := tgetD s.bays b {}
def State.modBay (s : State) (b : Nat) (f : Bay → Bay) : State := { s with bays := tmod s.bays b {} f }
def Bay.pier (b : Bay) (p : Nat) : Pier := tgetD b.piers p {}
def State.pier (s : State) (b p : Nat) : Pier := (s.bay b).pier p
def State.modPier (s : State) (b p : Nat) (f : Pier → Pier) : State :=
  s.modBay b (fun x => { x with piers := tmod x.piers p {} f })
/-- Number of a Girder over the device: 64 × Span + Girder. -/
def girNo (span g : Nat) : Nat := 64 * span + g
def State.girder (s : State) (g : Nat) : Girder := tgetD s.girders g {}
def State.modGirder (s : State) (g : Nat) (f : Girder → Girder) : State := { s with girders := tmod s.girders g {} f }
def State.ring (s : State) (r : Nat) : Ring := tgetD s.host.rings r {}
def State.modHost (s : State) (f : HostIf → HostIf) : State := { s with host := f s.host }
def State.modRing (s : State) (r : Nat) (f : Ring → Ring) : State :=
  s.modHost (fun h => { h with rings := tmod h.rings r {} f })
/-- A port before any change: state 0 and dark (R389, LNK_PORT_STATUS), its map the port's own number. -/
def State.port (s : State) (p : Nat) : Port := tgetD s.ports p {}
def State.modPort (s : State) (p : Nat) (f : Port → Port) : State := { s with ports := tmod s.ports p {} f }
def State.tenant (s : State) (t : Nat) : Tenant := tgetD s.tenants t {}
def State.modTenant (s : State) (t : Nat) (f : Tenant → Tenant) : State := { s with tenants := tmod s.tenants t {} f }
def State.sp (s : State) (n : Nat) : Spandrel := tgetD s.spandrels n {}
def State.modSp (s : State) (n : Nat) (f : Spandrel → Spandrel) : State := { s with spandrels := tmod s.spandrels n {} f }
def State.req (s : State) (h : Nat) : Option Req := tget s.reqs h
def State.modReq (s : State) (h : Nat) (f : Req → Req) : State :=
  match tget s.reqs h with
  | some q => { s with reqs := tset s.reqs h (f q) }
  | none => s
def State.modRas (s : State) (f : Ras → Ras) : State := { s with ras := f s.ras }
def State.modPw (s : State) (f : Power → Power) : State := { s with pw := f s.pw }
def State.modEn (s : State) (f : Energy → Energy) : State := { s with en := f s.en }
def State.modMgt (s : State) (f : Mgt → Mgt) : State := { s with mgt := f s.mgt }
def State.modChain (s : State) (f : Chain → Chain) : State := { s with chain := f s.chain }
def State.modLedger (s : State) (f : Ledger → Ledger) : State := { s with ledger := f s.ledger }
def State.modCerts (s : State) (f : Certs → Certs) : State := { s with certs := f s.certs }

/-- A change folded over a list of numbers or records. -/
def foldS {α : Type} (l : List α) (f : State → α → State) (s : State) : State := l.foldl f s

/-- The change when the condition holds. -/
def State.when (s : State) (b : Bool) (f : State → State) : State := if b then f s else s

/-- A new state with the parts that no command changes by itself: the queue of waiting commands and the level
of PERST_N, which only its own two commands change (R395, R420). -/
def keepFixed (s t : State) : State := { t with pending := s.pending, host := { t.host with perst := s.host.perst } }

/-- Besides those, OTP and the flash image stand: only COMMIT_SVN_DONE, REC_REINIT_LEDGER and
RECOVERY_PROGRAM_DONE write them (R391, R393, R394, R398). -/
def keepNv (s t : State) : State := { keepFixed s t with nv := s.nv }

/-- Besides the queue and PERST_N, the memories stand: HBM, Deck SRAM and Abutment SRAM. -/
def keepMem (s t : State) : State := { keepFixed s t with hbm := s.hbm, deck := s.deck, sram := s.sram }

/-- A command that stores nothing to a memory and burns nothing.  With PERST_N asserted no command has any
effect (R395). -/
def go (s : State) (f : State → State) : Host.Outcome State Fault Refusal :=
  .next (if s.host.perst then s else keepNv s (keepMem s (f s)))

/-- A command that may store to HBM, Deck SRAM or Abutment SRAM. -/
def goMem (s : State) (f : State → State) : Host.Outcome State Fault Refusal :=
  .next (if s.host.perst then s else keepNv s (f s))

/-- A command that may burn a fuse or program the flash. -/
def goNv (s : State) (f : State → State) : Host.Outcome State Fault Refusal :=
  .next (if s.host.perst then s else keepMem s (f s))

/-- Output to the world outside the package. -/
def emit (o : Output) (s : State) : State := { s with out := o :: s.out }

/-- The next free value (a value the spec leaves open), with the counter advanced. -/
def drawFree (s : State) : Nat × State := (Config.freeValue s.draws, { s with draws := s.draws + 1 })

/-- n bytes drawn from the device's random source. -/
def drawRandom (n : Nat) (s : State) : Bytes × State :=
  ((List.range n).map (Config.random s.draws), { s with draws := s.draws + 1 })

/-! ### Time bases -/

/-- Device frequency in units of 100 kHz (R289): 12,000 + 125 × step. -/
def freq100k (step : Nat) : Nat := 12000 + 125 * step

/-- Floor-pattern constant k (R303). -/
def floorK (step : Nat) : Nat := min 16 (16 * 12000 / freq100k step)

/-- Executed core cycles per reference tick, in 1/128 of a cycle: f × 10 ns, scaled by ½ while dies
skip on droop (R302), else by k/16 under the floor pattern (R303, Table 13.1). -/
def cyclesPerTick (p : Power) : Nat :=
  let f := 128 * freq100k p.curStep / 1000
  if p.droop ≠ 0 then f / 2 else if p.floor then f * floorK p.curStep / 16 else f

/-- Dies whose clocks run. -/
def Power.running (p : Power) : Nat := 255 - p.clkStopped % 256

/-- Once a die skips on droop, every other die that runs does too, 4 core cycles later, and once its skipping ends so does
theirs (R117): by the next tick. -/
def Power.mirror (p : Power) : Power := { p with droop := if p.tripped = 0 then 0 else p.running }

/-- Cycles in 1/128, of the 4 core cycles by which the other dies follow, that they still execute as skipping begins, and
that they still skip as it ends: half of them either way (R117). -/
def Power.ahead (p : Power) : Nat := if p.tripped ≠ 0 ∧ p.droop = p.tripped ∧ p.droop ≠ p.running then 256 else 0
def Power.behind (p : Power) : Nat := if p.tripped = 0 ∧ p.droop ≠ 0 then 256 else 0

/-- The clocks of a die run (R291, R320, R322). -/
def State.dieOn (s : State) (d : Die) : Bool := !bit s.pw.clkStopped d

/-- A die's own count of executed core cycles: two behind the others' while it skips ahead of them (R112, R117). -/
def State.executed (s : State) (d : Die) : Nat :=
  s.pw.core - (if bit s.pw.tripped d && s.pw.droop == s.pw.running && s.pw.tripped != s.pw.running then 2 else 0)

/-- The two time bases advanced by n reference ticks; a stopped Abutment A counts no core cycle. -/
def advance (n : Nat) (p : Power) : Power :=
  let q := p
  let p := { (if n = 0 then p else p.mirror) with hk := p.hk + n * (if bit p.clkStopped 6 then 16000 else freq100k p.curStep) }
  if bit p.clkStopped 6 then { p with refTicks := p.refTicks + n }
  else
    let t := p.frac + n * cyclesPerTick p + (if n = 0 then 0 else q.ahead) - (if n = 0 then 0 else q.behind)
    { p with refTicks := p.refTicks + n, core := p.core + t / 128, frac := t % 128 }

/-- Service beats (section 11): 512 executed core cycles each, resumed at boot from the checkpoint. -/
def serviceBeat (s : State) : Nat := s.ledger.beatBase + (s.pw.core - s.ledger.beatCore) / 512

end Sys2Proof.Machine
end

