-- ==== Sys2Proof/Machine/Fec.lean ====
section
/-! DEFINITION. The FEC of Pelind frames, encoded and decoded: two shortened RS(224,208) codewords over GF(2^8), field polynomial
0x11D, generator roots α^0 to α^15 (R324). -/

namespace Sys2Proof.Machine

/-- Multiplication by α of a byte. -/
def gfDouble (a : Nat) : Nat := (2 * a) ^^^ (0x11D * (a / 128))

/-- a · α^n. -/
def gfShift (a : Nat) : Nat → Nat
  | 0 => a
  | n + 1 => gfShift (gfDouble a) n

/-- Product in GF(2^8). -/
def gfMul (a b : Nat) : Nat := (List.range 8).foldr (fun i x => gfDouble x ^^^ (a * fld b i 1)) 0

/-- α^n. -/
def gfExp (n : Nat) : Nat := gfShift 1 (n % 255)

/-- Power and inverse. -/
def gfPow (a : Nat) : Nat → Nat
  | 0 => 1
  | n + 1 => gfMul a (gfPow a n)
def gfInv (a : Nat) : Nat := gfPow a 254

/-- Value of a polynomial, lowest coefficient first. -/
def gfEval (p : List Nat) (x : Nat) : Nat := p.foldr (fun c a => c ^^^ gfMul a x) 0

/-- Sum of two polynomials, the second times a factor and a power of x. -/
def gfAddMul (p q : List Nat) (k m : Nat) : List Nat :=
  (List.range (max p.length (q.length + m))).map (fun i => p.getD i 0 ^^^ (if m ≤ i then gfMul k (q.getD (i - m) 0) else 0))

/-- The sixteen syndromes of a codeword of 224 bytes, its first byte the highest coefficient. -/
def syndromes (cw : List Nat) : List Nat := (List.range 16).map (fun j => cw.foldl (fun a c => gfShift a j ^^^ c) 0)

/-- State of the Berlekamp–Massey recursion: locator, previous locator, its length, shift and discrepancy. -/
structure BerMas where
  c : List Nat := [1]
  b : List Nat := [1]
  l : Nat := 0
  m : Nat := 1
  d : Nat := 1

/-- One step of the recursion on syndrome n. -/
def berStep (syn : List Nat) (x : BerMas) (n : Nat) : BerMas :=
  let d := (List.range (x.l + 1)).foldl (fun a i => a ^^^ gfMul (x.c.getD i 0) (syn.getD (n - i) 0)) 0
  let k := gfMul d (gfInv x.d)
  if d = 0 then { x with m := x.m + 1 }
  else if 2 * x.l ≤ n then { c := gfAddMul x.c x.b k x.m, b := x.c, l := n + 1 - x.l, m := 1, d := d }
  else { x with c := gfAddMul x.c x.b k x.m, m := x.m + 1 }

/-- Positions of the codeword whose locator is a root of the error locator. -/
def errorPos (loc : List Nat) : List Nat := (List.range 224).filter (fun i => gfEval loc (gfExp (255 - (223 - i))) == 0)

/-- Error value at a position (first root α^0). -/
def errorVal (syn loc : List Nat) (i : Nat) : Nat :=
  let inv := gfExp (255 - (223 - i))
  let omega := (List.range 16).map (fun k => (List.range (k + 1)).foldl (fun a j => a ^^^ gfMul (syn.getD j 0) (loc.getD (k - j) 0)) 0)
  let deriv := (List.range loc.length).map (fun k => if k % 2 = 0 then loc.getD (k + 1) 0 else 0)
  gfMul (gfExp (223 - i)) (gfMul (gfEval omega inv) (gfInv (gfEval deriv inv)))

/-- A codeword with up to 8 byte errors corrected; none when it does not decode. -/
def rsDecode (cw : List Nat) : Option (List Nat) :=
  let syn := syndromes cw
  if syn.all (· == 0) then some cw
  else
    let x := (List.range 16).foldl (berStep syn) {}
    let ps := errorPos x.c
    if 8 < x.l || ps.length != x.l then none
    else
      let out := (List.range 224).map (fun i => cw.getD i 0 ^^^ (if ps.contains i then errorVal syn x.c i else 0))
      if (syndromes out).all (· == 0) then some out else none

/-- The generator polynomial with roots α^0 to α^15, highest coefficient first. -/
def rsGen : List Nat := ((List.range 16).foldl (fun p j => gfAddMul (p.map (gfMul (gfExp j))) p 1 1) [1]).reverse

/-- The 16 parity bytes of a message: the remainder of its polynomial, shifted by 16, by the generator. -/
def rsParity (msg : List Nat) : List Nat :=
  msg.foldl (fun (r : List Nat) b => ((r.drop 1 ++ [0]).zip (rsGen.drop 1)).map (fun e : Nat × Nat => e.1 ^^^ gfMul (b ^^^ r.headD 0) e.2)) (List.replicate 16 0)

/-- The bytes of codeword w among the first 16·n wire bytes: pieces of 8 bytes belong to the two codewords in turn (R324). -/
def wireWord (b : Bytes) (n w : Nat) : List Nat := (List.range n).flatMap (fun k => (slice b (16 * k + 8 * w) 8).map (·.toNat))

/-- Logical lane of a wire byte. -/
def wireLane (i : Nat) : Nat := i % 8

/-- The 448 wire bytes of 416 data bytes: each codeword's parity follows its data. -/
def fecEncode (data : Bytes) : Bytes :=
  let par := fun w => (rsParity (wireWord data 26 w)).map (BitVec.ofNat 8)
  let a := par 0
  let b := par 1
  slice data 0 416 ++ slice a 0 8 ++ slice b 0 8 ++ slice a 8 8 ++ slice b 8 8

/-- Both codewords of a frame, decoded; none when one of them does not decode. -/
def fecWords (wire : Bytes) : Option (List Nat × List Nat) :=
  match rsDecode (wireWord wire 28 0), rsDecode (wireWord wire 28 1) with
  | some a, some b => some (a, b)
  | _, _ => none

/-- The wire bytes of two decoded codewords. -/
def wireOf (x : List Nat × List Nat) : Bytes :=
  (List.range 28).flatMap (fun k => ((x.1.drop (8 * k)).take 8 ++ (x.2.drop (8 * k)).take 8).map (BitVec.ofNat 8))

/-- The 416 data bytes of a frame after FEC; none when a codeword does not decode. -/
def fecDecode (wire : Bytes) : Option Bytes := (fecWords wire).map (fun x => (wireOf x).take 416)

/-- Bytes that FEC corrected on a lane. -/
def fecFixed (wire : Bytes) (lane : Nat) : Nat :=
  match fecWords wire with
  | some x => (((wireOf x).zip wire).zipIdx.filter (fun e => wireLane e.2 == lane && e.1.1 != e.1.2)).length
  | none => 0

end Sys2Proof.Machine
end

