-- ==== Sys2Proof/Machine/Crypto.lean ====
section
/-! DEFINITION. The cryptographic functions that the spec names by their standards, on byte strings: SHAKE256 and
SHA3-512 (FIPS 202) and AES-256-GCM (FIPS 197, SP 800-38D) with a 96-bit IV.  The spec names them and does not restate
them (log entry 79). -/

namespace Sys2Proof.Machine

/-! ### Keccak (FIPS 202) -/

/-- 64-bit words and their left rotation. -/
def keccakRot (x n : Nat) : Nat := (x * 2 ^ n + x / 2 ^ (64 - n)) % 2 ^ 64

/-- The round constants of Keccak-f[1600]. -/
def keccakRc : List Nat := [
  0x1, 0x8082, 0x800000000000808A, 0x8000000080008000, 0x808B, 0x80000001,
  0x8000000080008081, 0x8000000000008009, 0x8A, 0x88, 0x80008009, 0x8000000A,
  0x8000808B, 0x800000000000008B, 0x8000000000008089, 0x8000000000008003, 0x8000000000008002, 0x8000000000000080,
  0x800A, 0x800000008000000A, 0x8000000080008081, 0x8000000000008080, 0x80000001, 0x8000000080008008]

/-- The rotation of lane x + 5y in step ρ. -/
def keccakOff : List Nat := [0, 1, 62, 28, 27, 36, 44, 6, 55, 20, 3, 10, 43, 25, 39, 41, 45, 15, 21, 8, 18, 2, 61, 56, 14]

/-- The 25 lanes of the state, lane x + 5y. -/
abbrev Lanes := List Nat

/-- Step θ. -/
def keccakTheta (a : Lanes) : Lanes :=
  let c := (List.range 5).map (fun x => a.getD x 0 ^^^ a.getD (x + 5) 0 ^^^ a.getD (x + 10) 0 ^^^ a.getD (x + 15) 0 ^^^ a.getD (x + 20) 0)
  let d := (List.range 5).map (fun x => c.getD ((x + 4) % 5) 0 ^^^ keccakRot (c.getD ((x + 1) % 5) 0) 1)
  (List.range 25).map (fun i => a.getD i 0 ^^^ d.getD (i % 5) 0)

/-- Steps ρ and π: lane X + 5Y comes from x = X + 3Y mod 5, y = X. -/
def keccakPi (a : Lanes) : Lanes :=
  (List.range 25).map (fun i =>
    let k := (i % 5 + 3 * (i / 5)) % 5 + 5 * (i % 5)
    keccakRot (a.getD k 0) (keccakOff.getD k 0))

/-- Step χ, then ι with a round constant. -/
def keccakChi (rc : Nat) (b : Lanes) : Lanes :=
  (List.range 25).map (fun i =>
    let y := i / 5 * 5
    let v := b.getD i 0 ^^^ ((2 ^ 64 - 1 - b.getD (y + (i + 1) % 5) 0) &&& b.getD (y + (i + 2) % 5) 0)
    if i = 0 then v ^^^ rc else v)

/-- Keccak-f[1600]. -/
def keccakF (a : Lanes) : Lanes := keccakRc.foldl (fun a rc => keccakChi rc (keccakPi (keccakTheta a))) a

/-- One block of the sponge's rate, at most 25 lanes of 8 bytes, added to the state and permuted. -/
def keccakAbsorb (a : Lanes) (block : Bytes) : Lanes :=
  keccakF ((List.range 25).map (fun i => a.getD i 0 ^^^ leNat ((block.drop (8 * i)).take 8)))

/-- n blocks of a byte string. -/
def keccakBlocks (rate n : Nat) (bs : Bytes) (a : Lanes) : Lanes :=
  match n with
  | 0 => a
  | k + 1 => keccakBlocks rate k (bs.drop rate) (keccakAbsorb a (bs.take rate))

/-- n blocks of output. -/
def keccakSqueeze (rate n : Nat) (a : Lanes) : Bytes :=
  match n with
  | 0 => []
  | k + 1 => (a.flatMap (leBytes 8)).take rate ++ keccakSqueeze rate k (keccakF a)

/-- The padded message: a domain byte, zeros, and the last bit of the block. -/
def keccakPad (rate dom : Nat) (bs : Bytes) : Bytes :=
  let z := rate - bs.length % rate
  bs ++ (if z = 1 then leBytes 1 (dom + 128) else leBytes 1 dom ++ List.replicate (z - 2) 0 ++ leBytes 1 128)

/-- The sponge: n bytes of output over a byte string. -/
def keccak (rate dom n : Nat) (bs : Bytes) : Bytes :=
  slice (keccakSqueeze rate (n / rate + 1) (keccakBlocks rate (bs.length / rate + 1) (keccakPad rate dom bs) (List.replicate 25 0))) 0 n

/-- n bytes of SHAKE256 over a byte string. -/
@[irreducible] def shake (n : Nat) (bs : Bytes) : Bytes := keccak 136 0x1F n bs

/-- SHA3-512 (R410). -/
@[irreducible] def sha3 (bs : Bytes) : Bytes := keccak 72 0x06 64 bs

/-! ### AES-256 (FIPS 197) -/

/-- The S-box: byte x in bits 8 (x mod 32) on of word x / 32. -/
def sboxWords : List Nat := [
  0xC072A49CAFA2D4ADF04759FA7DC982CA76ABD7FE2B670130C56F6BF27B777C63,
  0x75B227EBE28012079A059618C323C7041531D871F1E5A534CCF73F362693FDB7,
  0xCF584C4A39BECB6A5BB1FC20ED00D153842FE329B3D63B52A05A6E1B1A2C8309,
  0xD2F3FF1021DAB6BCF5389D928F40A351A89F3C507F02F94585334D43FBAAEFD0,
  0xDB0B5EDE14B8EE4688902A22DC4F816073195D643D7EA7C41744975FEC130CCD,
  0x08AE7A65EAF4566CA94ED58D6D37C8E779E4959162ACD3C25C2406490A3A32E0,
  0x9E1DC186B95735610EF6034866B53E708A8BBD4B1F74DDE8C6B4A61C2E2578BA,
  0x16BB54B00F2D99416842E6BF0D89A18CDF2855CEE9871E9B948ED9691198F8E1]

def sbox (x : Nat) : Nat := sboxWords.getD (x / 32) 0 / 2 ^ (8 * (x % 32)) % 256

/-- Multiplication by x in GF(2^8). -/
def aesDouble (a : Nat) : Nat := if a < 128 then 2 * a else (2 * a - 256) ^^^ 0x1B

/-- Four bytes of the expanded key, from the words before it, newest first. -/
def aesNextWord (n : Nat) (ws : List (List Nat)) : List Nat :=
  let t := ws.getD 0 []
  let g := if n % 8 = 0 then
      let r := [sbox (t.getD 1 0), sbox (t.getD 2 0), sbox (t.getD 3 0), sbox (t.getD 0 0)]
      (r.getD 0 0 ^^^ 2 ^ (n / 8 - 1)) :: r.drop 1
    else if n % 8 = 4 then t.map sbox
    else t
  ((ws.getD 7 []).zip g).map (fun e => e.1 ^^^ e.2)

/-- The first words of the expanded key, newest first: k further words. -/
def aesExpand (k : Nat) (key : List Nat) : List (List Nat) :=
  match k with
  | 0 => ((List.range 8).map (fun i => (List.range 4).map (fun j => key.getD (4 * i + j) 0))).reverse
  | k + 1 => let ws := aesExpand k key; aesNextWord (k + 8) ws :: ws

/-- The fifteen round keys of AES-256, 16 bytes each. -/
def aesKeys (key : Bytes) : List (List Nat) :=
  let ws := (aesExpand 52 ((slice key 0 32).map (·.toNat))).reverse
  (List.range 15).map (fun r => (List.range 4).flatMap (fun i => ws.getD (4 * r + i) []))

def aesAdd (a b : List Nat) : List Nat := (a.zip b).map (fun e => e.1 ^^^ e.2)

/-- SubBytes and ShiftRows: byte r + 4c comes from row r of column c + r. -/
def aesShift (a : List Nat) : List Nat := (List.range 16).map (fun i => sbox (a.getD (i % 4 + 4 * ((i / 4 + i % 4) % 4)) 0))

/-- MixColumns. -/
def aesMix (a : List Nat) : List Nat :=
  (List.range 16).map (fun i =>
    let c := i / 4 * 4
    let x := fun k => a.getD (c + (i + k) % 4) 0
    aesDouble (x 0) ^^^ (aesDouble (x 1) ^^^ x 1) ^^^ x 2 ^^^ x 3)

/-- One block under the round keys: the first and the last round apart, every round mixes. -/
def aesBlock (ks : List (List Nat)) (b : List Nat) : List Nat :=
  let m := ((ks.drop 1).take 13).foldl (fun a k => aesAdd (aesMix (aesShift a)) k) (aesAdd b (ks.getD 0 []))
  aesAdd (aesShift m) (ks.getD 14 [])

/-! ### Galois/Counter mode (SP 800-38D) -/

/-- The number that bytes spell, big-endian, and its 16 bytes. -/
def beNat (bs : List Nat) : Nat := bs.foldl (fun a b => 256 * a + b) 0
def beBytes (n v : Nat) : List Nat := (List.range n).map (fun i => v / 256 ^ (n - 1 - i) % 256)

/-- Multiplication of blocks: Z and V after each bit of X, the highest first. -/
def ghashBits (n x v z : Nat) : Nat :=
  match n with
  | 0 => z
  | k + 1 => ghashBits k x (if v % 2 = 1 then v / 2 ^^^ 0xE1 * 2 ^ 120 else v / 2) (if x / 2 ^ k % 2 = 1 then z ^^^ v else z)

/-- GHASH over whole blocks, the last one padded with zeros: n blocks under H, from y. -/
def ghash (h n : Nat) (bs : List Nat) (y : Nat) : Nat :=
  match n with
  | 0 => y
  | k + 1 => ghash h k (bs.drop 16) (ghashBits 128 (y ^^^ beNat ((List.range 16).map (fun i => bs.getD i 0))) h 0)

/-- The counter block of a 96-bit IV. -/
def gcmCounter (iv : Bytes) (n : Nat) : List Nat := (slice iv 0 12).map (·.toNat) ++ beBytes 4 n

/-- Key stream and data added, block by block from counter c. -/
def gcmCrypt (ks : List (List Nat)) (iv : Bytes) (n c : Nat) (bs : Bytes) : Bytes :=
  match n with
  | 0 => []
  | k + 1 => (((bs.take 16).zip (aesBlock ks (gcmCounter iv c))).map (fun e => e.1 ^^^ BitVec.ofNat 8 e.2)) ++ gcmCrypt ks iv k (c + 1) (bs.drop 16)

/-- The 16-byte tag over additional data and ciphertext. -/
def gcmTag (ks : List (List Nat)) (iv aad ct : Bytes) : Bytes :=
  let h := beNat (aesBlock ks (List.replicate 16 0))
  let y := ghash h (ceilDiv aad.length 16) (aad.map (·.toNat)) 0
  let y := ghash h (ceilDiv ct.length 16) (ct.map (·.toNat)) y
  let y := ghash h 1 (beBytes 8 (8 * aad.length) ++ beBytes 8 (8 * ct.length)) y
  (beBytes 16 (y ^^^ beNat (aesBlock ks (gcmCounter iv 1)))).map (BitVec.ofNat 8)

/-- AES-256-GCM encryption: ciphertext and 16-byte tag. -/
@[irreducible] def gcmSeal (key iv aad pt : Bytes) : Bytes × Bytes :=
  let ks := aesKeys key
  let ct := gcmCrypt ks iv (ceilDiv pt.length 16) 2 pt
  (ct, gcmTag ks iv aad ct)

/-- AES-256-GCM decryption under a tag of at most 16 bytes: none when the tag does not match (the first bytes of
the full tag, R343 for 12). -/
@[irreducible] def gcmOpen (key iv aad ct tag : Bytes) : Option Bytes :=
  let ks := aesKeys key
  if (gcmTag ks iv aad ct).take tag.length = tag then some (gcmCrypt ks iv (ceilDiv ct.length 16) 2 ct) else none

/-! ### The identity -/

/-- The OTP secret (R409). -/
def otpSecret : Bytes := (List.range 32).map Config.otpSecretByte

/-- ξ, the seed of the identity key: the secret, then "XN8-ID" (R409). -/
def idSeed : Bytes := shake 32 (otpSecret ++ [0x58, 0x4E, 0x38, 0x2D, 0x49, 0x44])

/-- (d, z), the seed of the key-encapsulation key: the secret, then "XN8-KEM" (R409). -/
def kemSeed : Bytes := shake 64 (otpSecret ++ [0x58, 0x4E, 0x38, 0x2D, 0x4B, 0x45, 0x4D])

/-- The identity public key: 1,952 bytes (R409). -/
def idKey : Bytes := (List.range 1952).map (Config.mldsaPublic idSeed)

/-- The signature of the identity key over a message: 3,309 bytes (R231, R409). -/
def idSign (msg : Bytes) : Bytes := (List.range 3309).map (Config.mldsaSign idSeed msg)

/-- The shared secret that the key-encapsulation key gives for a ciphertext: 32 bytes (R212, R409). -/
def decapsulate (ct : Bytes) : Bytes := (List.range 32).map (Config.kemSecret kemSeed ct)

/-- device_tag (R409). -/
def deviceTag : Bytes := shake 16 idKey

end Sys2Proof.Machine
end

