-- ==== Sys2Proof/Machine/Operands.lean ====
section
/-! DEFINITION. Operand forms: fields of register cards, of the itinerary container (section 6), of op
words and of local addresses. -/

namespace Sys2Proof.Machine

/-! ### Register cards -/

/-- Reset value of the word at an 8-byte-aligned BAR0 offset, for the fields that software writes. -/
def resetWord (off : Nat) : Word :=
  if off = 0x10000 then 0x0000000A00000000
  else if off = 0x66000 then 0x5540
  else if off = 0x80000 then 0x001E000033333333
  else if off = 0x80030 then 0x0000000301C10400
  else if off = 0xA0030 then 0x00000FFF804002BC
  else if off = 0xA0040 then 0x000000000A0F1E2D
  else if off = 0xB0000 then 0x00001414086E645F
  else if off = 0xC0000 then 0x0000402000080401
  else if 0xD0100 ≤ off ∧ off < 0xD01C0 ∧ off % 32 = 0 then BitVec.ofNat 64 (0x10000000 + (off - 0xD0100) / 32)
  else if off = 0xF0010 then 0x000003E800000000
  else 0

/-- The stored word at an offset. -/
def State.word (s : State) (off : Nat) : Nat := (tgetD s.words off (resetWord off)).toNat

/-- A stored word replaced. -/
def State.setWord (s : State) (off v : Nat) : State := { s with words := tset s.words off (BitVec.ofNat 64 v) }

/-- A register of n words as one number, the word at the lowest offset in bits [63:0] (R413). -/
def State.card (s : State) (off n : Nat) : Nat :=
  (List.range n).foldl (fun a k => a + s.word (off + 8 * k) * 2 ^ (64 * k)) 0

/-- A field of a stored word with bits of it replaced. -/
def putFld (w lo n v : Nat) : Nat := w - fld w lo n * 2 ^ lo + v % 2 ^ n * 2 ^ lo

def cwyBase (c : Nat) : Nat := 0x40000 + 0x400 * c
def State.cfg (s : State) (c lo n : Nat) : Nat := fld (s.word (cwyBase c + 0x20)) lo n
def State.thShare (s : State) (c : Nat) : Nat := s.cfg c 0 11
def State.wideBudget (s : State) (c : Nat) : Nat := s.cfg c 16 4
def State.holdAll (s : State) (c : Nat) : Bool := s.cfg c 24 1 == 1
def State.draftEn (s : State) (c : Nat) : Bool := s.cfg c 25 1 == 1
def State.draftCwy (s : State) (c : Nat) : Nat := s.cfg c 26 6
def State.itinBase (s : State) (c : Nat) : Nat := fld (s.word (cwyBase c + 0x30)) 0 39
def State.keyAddr (s : State) (c : Nat) : Nat := fld (s.word (cwyBase c + 0x38)) 0 39
def State.kvf (s : State) (c lo n : Nat) : Nat := fld (s.card (cwyBase c + 0x40) 4) lo n
def State.slotLenU (s : State) (c : Nat) : Nat := fld (s.word (cwyBase c + 0x80)) 0 23
def State.grant (s : State) (c lo n : Nat) : Nat := fld (s.card (cwyBase c + 0x100) 16) lo n
/-- Carve-out base and length in bytes. -/
def State.carveBase (s : State) (c : Nat) : Nat := s.grant c 384 18 * 2 ^ 21
def State.carveLen (s : State) (c : Nat) : Nat := s.grant c 416 18 * 2 ^ 21
def State.kvLayers (s : State) (c : Nat) : Nat := s.kvf c 104 8
def State.kvFirst (s : State) (c : Nat) : Nat := s.kvf c 96 8
def State.kvHeads (s : State) (c : Nat) : Nat := s.kvf c 112 4
def State.ringPos (s : State) (c : Nat) : Nat := s.kvf c 120 5
def State.ringSize (s : State) (c : Nat) : Nat := s.kvf c 128 6
def State.poolBase (s : State) (c : Nat) : Nat := s.kvf c 0 18 * 2 ^ 21
def State.poolLen (s : State) (c : Nat) : Nat := s.kvf c 18 18 * 2 ^ 21
def State.tabBase (s : State) (c : Nat) : Nat := s.kvf c 36 18 * 2 ^ 21
def State.tabLen (s : State) (c : Nat) : Nat := s.kvf c 64 18 * 2 ^ 21
/-- Frame size F and frame count N_f (R182). -/
def State.frameSize (s : State) (c : Nat) : Nat := s.kvLayers c * s.kvHeads c * 4096
def State.nFrames (s : State) (c : Nat) : Nat := if s.frameSize c = 0 then 0 else s.poolLen c / s.frameSize c

def tenBase (t : Nat) : Nat := 0x20000 + 0x40 * t
def State.ten (s : State) (t lo n : Nat) : Nat := fld (s.card (tenBase t) 4) lo n
def State.tenCwy (s : State) (t : Nat) : Nat := s.ten t 46 6
def State.tenPasid (s : State) (t : Nat) : Nat := s.ten t 52 20
def State.tenShare (s : State) (t : Nat) : Bool := s.ten t 113 1 == 1
def State.tenPrio (s : State) (t : Nat) : Nat := s.ten t 114 2
def State.tenItl (s : State) (t : Nat) : Nat := s.ten t 128 16
def State.tenFtl (s : State) (t : Nat) : Nat := s.ten t 144 16
def State.tenActive (s : State) (t : Nat) : Nat := s.ten t 160 11
def State.tenTracked (s : State) (t : Nat) : Nat := s.ten t 171 21
def State.tenPrompt (s : State) (t : Nat) : Nat := s.ten t 192 24
def State.tenCtx (s : State) (t : Nat) : Nat := s.ten t 216 24
def State.far (s : State) (t lo n : Nat) : Nat := fld (s.card (0x30000 + 0x10 * t) 2) lo n
/-- A request is bounded when its tenant has a non-zero max_itl_us or ftl_ms. -/
def State.bounded (s : State) (t : Nat) : Bool := s.tenItl t != 0 || s.tenFtl t != 0

def ringBase (r : Nat) : Nat := 0x14000 + 0x20 * r
def State.rng (s : State) (r lo n : Nat) : Nat := fld (s.card (ringBase r) 4) lo n
def State.ringOwner (s : State) (r : Nat) : Nat := s.rng r 58 10
def State.vecCq (s : State) (r : Nat) : Nat := s.rng r 68 11
def State.vecTok (s : State) (r : Nat) : Nat := s.rng r 79 11
def State.sqLog (s : State) (r : Nat) : Nat := s.rng r 90 5
def State.cqLog (s : State) (r : Nat) : Nat := s.rng r 95 5
def State.ctlBase (s : State) (r : Nat) : Nat := s.rng r 100 52 * 4096
def State.sqBase (s : State) (r : Nat) : Nat := s.rng r 152 52 * 4096
def State.cqBase (s : State) (r : Nat) : Nat := s.rng r 204 52 * 4096
def State.evtf (s : State) (lo n : Nat) : Nat := fld (s.card 0x10040 4) lo n

/-- The Carriageway of a ring: an administrative ring's own, or that of the owner's tenant slot (R365). -/
def State.ringCwy (s : State) (r : Nat) : Nat := if 1024 ≤ r then r - 1024 else s.tenCwy (s.ringOwner r)

/-- The PASID of a ring's accesses: none for administrative rings (R363). -/
def State.ringPasid (s : State) (r : Nat) : Option Nat :=
  if 1024 ≤ r then none else some (s.tenPasid (s.ringOwner r))

/-- A ring is bound to Carriageway c (R365). -/
def State.ringBound (s : State) (r c : Nat) : Bool :=
  (s.ring r).state == 1 && s.ringCwy r == c

def State.winCfg (s : State) (lo n : Nat) : Nat := fld (s.word 0x80000) lo n
def State.capf (s : State) (lo n : Nat) : Nat := fld (s.word 0xA0030) lo n
def State.paceMax (s : State) : Nat := s.capf 32 12
def State.vrf (s : State) (lo n : Nat) : Nat := fld (s.word 0xA0040) lo n
def State.thmf (s : State) (lo n : Nat) : Nat := fld (s.word 0xB0000) lo n
def State.calf (s : State) (lo n : Nat) : Nat := fld (s.word 0xC0000) lo n
def State.inspf (s : State) (lo n : Nat) : Nat := fld (s.word 0x80030) lo n
def State.torus (s : State) (lo n : Nat) : Nat := fld (s.word 0xD0000) lo n
def State.portCtl (s : State) (p lo n : Nat) : Nat := fld (s.word (0xD0100 + 0x20 * p)) lo n
def State.portMap (s : State) (p : Nat) : Nat := s.portCtl p 0 3
def State.portOff (s : State) (p : Nat) : Bool := s.portCtl p 6 1 == 1
def State.thru (s : State) (q lo n : Nat) : Nat := fld (s.word (0xD0200 + 8 * q)) lo n
def State.jobf (s : State) (c lo n : Nat) : Nat := fld (s.card (0xD1000 + 0x20 * c) 2) lo n
def State.close (s : State) (c d : Nat) : Nat := fld (s.card (0xD2000 + 0x20 * c) 3) (32 * d) 32
def State.jobId (s : State) (c : Nat) : Nat := s.jobf c 48 16

/-! ### Torus coordinates (R336 to R338) -/

/-- A coordinate (x, y, z). -/
abbrev Coord := Nat × Nat × Nat

def coordAt (v : Coord) (a : Nat) : Nat := if a = 0 then v.1 else if a = 1 then v.2.1 else v.2.2
def coordSet (v : Coord) (a x : Nat) : Coord :=
  if a = 0 then (x, v.2.1, v.2.2) else if a = 1 then (v.1, x, v.2.2) else (v.1, v.2.1, x)
def State.torusSize (s : State) : Coord := (s.torus 25 5 + 1, s.torus 20 5 + 1, s.torus 15 5 + 1)
def State.coord (s : State) : Coord := (s.torus 10 5, s.torus 5 5, s.torus 0 5)
def unpackCoord (w : Nat) : Coord := (fld w 10 5, fld w 5 5, fld w 0 5)
def State.jobOrigin (s : State) (c : Nat) : Coord := unpackCoord (s.jobf c 0 15)
def State.jobExtent (s : State) (c : Nat) : Coord :=
  let e := unpackCoord (s.jobf c 15 15); (e.1 + 1, e.2.1 + 1, e.2.2 + 1)
def State.jobWrap (s : State) (c a : Nat) : Bool := s.jobf c (30 + a) 1 == 1
def State.jobLead (s : State) (c : Nat) : Coord := unpackCoord (s.jobf c 33 15)

/-- The torus step of a coordinate in direction d (0 +X, 1 +Y, 2 +Z, 3 −X, 4 −Y, 5 −Z). -/
def torusStep (size v : Coord) (d : Nat) : Coord :=
  let a := d % 3; let n := coordAt size a
  coordSet v a (if d < 3 then (coordAt v a + 1) % n else (coordAt v a + n - 1) % n)

/-- Slice coordinate of a device coordinate (R336). -/
def State.sliceCoord (s : State) (c : Nat) (v : Coord) : Coord :=
  let o := s.jobOrigin c; let n := s.torusSize
  let f := fun a => (coordAt v a + coordAt n a - coordAt o a % coordAt n a) % coordAt n a
  (f 0, f 1, f 2)

/-- Member index of a slice coordinate, and its inverse. -/
def State.memberIdx (s : State) (c : Nat) (v : Coord) : Nat :=
  let e := s.jobExtent c; v.1 + e.1 * (v.2.1 + e.2.1 * v.2.2)
def State.memberCoord (s : State) (c m : Nat) : Coord :=
  let e := s.jobExtent c; (m % e.1, m / e.1 % e.2.1, m / e.1 / e.2.1)

/-- This device's slice coordinate, member index and whether it is the lead. -/
def State.here (s : State) (c : Nat) : Coord := s.sliceCoord c s.coord
def State.self (s : State) (c : Nat) : Nat := s.memberIdx c (s.here c)
def State.leadIdx (s : State) (c : Nat) : Nat := s.memberIdx c (s.sliceCoord c (s.jobLead c))
def State.isLead (s : State) (c : Nat) : Bool := s.self c == s.leadIdx c
def State.members (s : State) (c : Nat) : Nat := let e := s.jobExtent c; e.1 * e.2.1 * e.2.2

/-- A logical direction closed on this member (R349). -/
def State.closed (s : State) (c d : Nat) : Bool := bit (s.close c d) 31
/-- Hops of a closure, as torus directions (R345). -/
def State.closeHops (s : State) (c d : Nat) : List Nat :=
  (List.range (fld (s.close c d) 28 3 + 1)).map (fun h => fld (s.close c d) (3 * h) 3)

/-- Whether the wrap edge of an axis is a closure, as far as is known here: only this member's own closures stand in its
registers, so it is one when this member's entry in either direction of the axis is valid, or when the torus is longer
than the slice on a wrapped axis (R337, R349). -/
def State.wrapClosed (s : State) (c a : Nat) : Bool :=
  s.jobWrap c a && (s.closed c a || s.closed c (a + 3) || coordAt (s.jobExtent c) a != coordAt s.torusSize a)

/-- The direction of the route rule from one slice coordinate towards another (R338): none when equal. -/
def State.route (s : State) (c : Nat) (x y : Coord) : Option Nat :=
  let ax := if x.2.2 ≠ y.2.2 then some 2 else if x.2.1 ≠ y.2.1 then some 1 else if x.1 ≠ y.1 then some 0 else none
  ax.map fun a =>
    let n := coordAt (s.jobExtent c) a
    let p := coordAt x a; let q := coordAt y a
    let plus := if p < q then a else a + 3
    if s.jobWrap c a && !s.wrapClosed c a then
      let up := (q + n - p) % n; let dn := (p + n - q) % n
      if up < dn then a else a + 3
    else plus

/-- The slice coordinate one move away in direction d, wrapping inside the slice. -/
def State.move (s : State) (c : Nat) (x : Coord) (d : Nat) : Coord := torusStep (s.jobExtent c) x d

/-- The parent of a member on the gather tree (R350). -/
def State.parentOf (s : State) (c m : Nat) : Option Nat :=
  let x := s.memberCoord c m
  (s.route c x (s.memberCoord c (s.leadIdx c))).map (fun d => s.memberIdx c (s.move c x d))

/-- The children of this member on the gather tree. -/
def State.children (s : State) (c : Nat) : List Nat :=
  (List.range (s.members c)).filter (fun m => m != s.self c && s.parentOf c m == some (s.self c))

/-- Depth D of the gather tree: per axis, from the lead (R124, R350). -/
def State.depth (s : State) (c : Nat) : Nat :=
  let l := s.memberCoord c (s.leadIdx c)
  ((List.range 3).map fun a =>
    let n := coordAt (s.jobExtent c) a; let p := coordAt l a
    if s.jobWrap c a && !s.wrapClosed c a then n / 2 else max p (n - 1 - p)).sum

/-- The port mapped to a logical direction: the lowest, if any. -/
def State.portOf (s : State) (d : Nat) : Option Nat := (List.range 6).find? (fun p => s.portMap p == d)

/-- The port on which a direction of the Carriageway leaves: its closure's first hop when closed. -/
def State.outPort (s : State) (c d : Nat) : Option Nat :=
  if s.closed c d then s.portOf ((s.closeHops c d).headD 0) else s.portOf d

/-! ### The itinerary container (Tables 6.1 to 6.7) -/

/-- A little-endian field of the container of Carriageway c. -/
def State.itin (s : State) (c o n : Nat) : Nat := memLe s.hbm (s.itinBase c + o) n
def State.shapeCount (s : State) (c : Nat) : Nat := s.itin c 10 1
def State.pierUse (s : State) (c : Nat) : Bool := bit (s.itin c 11 1) 0
def State.fHi (s : State) (c : Nat) : Nat := s.itin c 12 1
def State.rampShare (s : State) (c : Nat) : Nat := s.itin c 13 1
def State.wideReserve (s : State) (c : Nat) : Nat := s.itin c 14 1
def State.layerCount (s : State) (c : Nat) : Nat := s.itin c 15 1
def State.waitAllow (s : State) (c : Nat) : Nat := s.itin c 16 4
def State.waitLimit (s : State) (c : Nat) : Nat := s.itin c 20 2
def State.itinLen (s : State) (c : Nat) : Nat := s.itin c 24 8
def State.itinBuild (s : State) (c : Nat) : Bytes := memBytes s.hbm (s.itinBase c + 48) 16
/-- Offset and length of section k, 2 to 7. -/
def State.secOff (s : State) (c k : Nat) : Nat := s.itin c (80 + 8 * (k - 2)) 4
def State.secLen (s : State) (c k : Nat) : Nat := s.itin c (84 + 8 * (k - 2)) 4
def State.shapef (s : State) (c n o w : Nat) : Nat := s.itin c (s.secOff c 2 + 32 * n + o) w
def State.shapeL (s : State) (c n : Nat) : Nat := s.shapef c n 0 2
def State.decodeSlots (s : State) (c n : Nat) : Nat := s.shapef c n 2 2
def State.prefillChunks (s : State) (c n : Nat) : Nat := s.shapef c n 4 1
def State.specCands (s : State) (c n : Nat) : Nat := s.shapef c n 5 1
def State.kvPages (s : State) (c n : Nat) : Nat := s.shapef c n 8 4
def State.dirf (s : State) (c n die o w : Nat) : Nat := s.itin c (s.secOff c 3 + 16 * (8 * n + die) + o) w
def State.layerf (s : State) (c l o w : Nat) : Nat := s.itin c (s.secOff c 5 + 32 * l + o) w

/-- Number of admission positions of a shape: N_pos (section 8). -/
def State.nPos (s : State) (c n : Nat) : Nat :=
  s.decodeSlots c n * (1 + s.specCands c n) + s.prefillChunks c n * 256

/-- The resource records from an offset: type, and container offset and length of the payload. -/
def recsFrom (s : State) (c : Nat) (fuel off stop : Nat) : List (Nat × Nat × Nat) :=
  match fuel with
  | 0 => []
  | k + 1 =>
    if off + 4 > stop then []
    else
      let n := s.itin c (off + 2) 2
      (s.itin c off 2, off + 4, n) :: recsFrom s c k (off + (4 + n + 7) / 8 * 8) stop

/-- The resource records of a container. -/
def State.records (s : State) (c : Nat) : List (Nat × Nat × Nat) :=
  recsFrom s c (s.secLen c 4 / 4) (s.secOff c 4) (s.secOff c 4 + s.secLen c 4)

/-- Payload offsets of the records of one type. -/
def State.recs (s : State) (c typ : Nat) : List (Nat × Nat) :=
  ((s.records c).filter (fun r => r.1 == typ)).map (·.2)

/-- Group bitmap of a Span that the GROUPS records declare. -/
def State.groups (s : State) (c sp : Nat) : Nat :=
  (s.recs c 1).foldl (fun a r => a ||| s.itin c (r.1 + 8 * sp) 8) 0

/-- Share of a stack in HBM_SHARE, and of a logical direction in PELIND_SHARE. -/
def State.hbmShare (s : State) (c k : Nat) : Nat := ((s.recs c 5).map (fun r => s.itin c (r.1 + k) 1)).sum
def State.pelShare (s : State) (c d : Nat) : Nat := ((s.recs c 6).map (fun r => s.itin c (r.1 + d) 1)).sum
/-- Rings of the RING records; cycle masks as link and mask; Spandrel slots declared. -/
def State.itinRings (s : State) (c : Nat) : List Nat := (s.recs c 8).map (fun r => s.itin c r.1 2)
def State.masks (s : State) (c : Nat) : List (Nat × Nat) := (s.recs c 4).map (fun r => (s.itin c r.1 2, s.itin c (r.1 + 2) 2))
def State.itinSlots (s : State) (c : Nat) : Nat := (s.recs c 7).foldl (fun a r => a ||| s.itin c r.1 r.2) 0

/-- Carried regions of a space (0 Deck, 1 HBM): the bases of bank 0 and bank 1 and the length, in 64-byte units of local
addresses or of the carve-out (R125).  DESIGN CHOICE: Table 6.5 gives the fields of a CARRIED record no widths; the three
stand as 64-bit words behind a first word that holds the space (log 199). -/
def State.carried (s : State) (c space : Nat) : List (Nat × Nat × Nat) :=
  (s.recs c 9).filterMap (fun r =>
    let f := fun k => if 8 * k + 8 ≤ r.2 then s.itin c (r.1 + 8 * k) 8 else 0
    if s.itin c r.1 1 = space then some (f 1, f 2, f 3) else none)

/-- The other bank's unit for a unit of one bank. -/
def otherBank (u : Nat) : List (Nat × Nat × Nat) → Nat
  | [] => u
  | (b0, b1, n) :: r =>
    if b0 ≤ u ∧ u < b0 + n then u - b0 + b1 else if b1 ≤ u ∧ u < b1 + n then u - b1 + b0 else otherBank u r

/-- The unit that an access of a Carriageway reaches (R122 item 1, R125).  DESIGN CHOICE: an op names the banks as a step
with n = 0 uses them, and after an odd count of good seals the two banks of each region stand exchanged (log 199). -/
def State.bankUnit (s : State) (c space u : Nat) : Nat :=
  if (s.cwy c).life.sealed % 2 = 0 then u else otherBank u (s.carried c space)

/-- The 128-bit op words of one die's stream. -/
def State.stream (s : State) (c n die : Nat) : List Nat :=
  (List.range (s.dirf c n die 4 4)).map (fun i => s.itin c (s.dirf c n die 8 8 + 16 * i) 16)

def opClass (w : Nat) : Nat := fld w 102 4
def opCycle (w : Nat) : Nat := fld w 106 22
def opPred (w : Nat) : Nat := fld w 100 2
def opLayer (w : Nat) : Nat := fld w 92 8
def opBay (w : Nat) : Nat := fld w 84 8

/-- Every op of a Span in any shape. -/
def State.spanOps (s : State) (c sp : Nat) : List Nat :=
  (List.range (s.shapeCount c)).flatMap (fun n => s.stream c n sp)

/-- The itinerary beats a Bay (R440): a BEAT or BALLAST op names it. -/
def State.beats (s : State) (c b : Nat) : Bool :=
  (s.spanOps c (b / 256)).any (fun w => (opClass w == 1 || opClass w == 2) && opBay w == b % 256)

/-- The itinerary uses a Bay (R440): a BEAT, BALLAST, WSEG, SLOT or COMBINE op names it. -/
def State.uses (s : State) (c b : Nat) : Bool :=
  (s.spanOps c (b / 256)).any (fun w => 1 ≤ opClass w && opClass w ≤ 5 && opBay w == b % 256)

/-- The itinerary uses a group (R440): its GROUPS record includes it. -/
def State.usesGroup (s : State) (c sp g : Nat) : Bool := bit (s.groups c sp) g
def State.usesSpan (s : State) (c sp : Nat) : Bool := s.groups c sp != 0

/-- The Bays that the itinerary beats, ascending. -/
def State.beatenBays (s : State) (c : Nat) : List Nat := (List.range 1536).filter (s.beats c)

/-- A Carriageway's grant includes a group, and so its Bays. -/
def State.grantsGroup (s : State) (c sp g : Nat) : Bool := bit (s.grant c (64 * sp) 64) g
def State.grantsBay (s : State) (c b : Nat) : Bool := s.grantsGroup c (b / 256) (b % 256 / 4)

/-- A Carriageway that is not DISABLED, and the list of them. -/
def State.enabled (s : State) (c : Nat) : Bool := (s.cwy c).life.state != .disabled
def State.enabledCwys (s : State) : List Nat := (List.range 64).filter s.enabled
def State.inState (s : State) (c : Nat) (l : List CState) : Bool := l.contains (s.cwy c).life.state

/-- Two ranges (base, length) overlap. -/
def overlap (a b : Nat × Nat) : Bool := decide (a.1 < b.1 + b.2 ∧ b.1 < a.1 + a.2)

/-- Container length of a Carriageway (total_length). -/
def State.totalLen (s : State) (c : Nat) : Nat := s.itinLen c

/-- Carriageways whose enable bit is set and whose container an access meets (R137). -/
def State.containerHit (s : State) (a n : Nat) : List Nat :=
  s.enabledCwys.filter (fun c => overlap (a, n) (s.itinBase c, s.totalLen c))

/-- The issue cycle of an op in device core cycles. -/
def State.opTime (s : State) (op : Op) : Nat :=
  (s.cwy op.cwy).run.start + (s.cwy op.cwy).run.stall + op.cyc

/-- Body length of the running shape in core cycles (R104). -/
def State.bodyLen (s : State) (c : Nat) : Nat := s.shapeL c (s.cwy c).run.shape * 512

/-- K_max in nanoseconds: 0.8 µs × max(1, D) (R124). -/
def State.kMax (s : State) (c : Nat) : Nat := 800 * max 1 (s.depth c)

/-- Duration in picoseconds of n core cycles at a frequency step. -/
def cyclesPs (n step : Nat) : Nat := n * 10000000 / freq100k step

/-- P_max of a shape in picoseconds (R127), and the itinerary's worst-case period P. -/
def State.pMax (s : State) (c n step : Nat) : Nat :=
  cyclesPs (s.shapeL c n * 512) step + 1000 * (s.waitAllow c + s.kMax c)
def State.period (s : State) (c step : Nat) : Nat :=
  ((List.range (s.shapeCount c)).map (fun n => s.pMax c n step)).foldl max 0

end Sys2Proof.Machine
end

