-- ==== Sys2Proof/Machine/HostOps.lean ====
section
/-! DEFINITION. What the device does towards the host, shared by every family: host-memory writes, MSI-X,
event records, completions, ring status lines, descriptor fetches (sections 15). -/

namespace Sys2Proof.Machine

/-- The 4 KiB pages of a host access. -/
def hostPages (addr len : Nat) : List Nat := (List.range ((addr + len - 1) / 4096 + 1 - addr / 4096)).map (· + addr / 4096)

/-- With ATS enabled, a page that is not cached is translated by a request of its own and the translation is cached, in
the space of the access's PASID or in that without one (R363).  PRESUMED: pages of 4 KiB, the smallest of ATS (log 28). -/
def cacheAtc (pasid : Option Nat) (addr len : Nat) (s : State) : State :=
  if s.host.atsEn then
    foldS ((hostPages addr len).filter (fun p => !s.host.atc.contains (pasid, p))) (fun s p =>
      emit (.atsRequest pasid p) (s.modHost (fun h => { h with atc := (pasid, p) :: h.atc }))) s
  else s

/-- A posted write into host memory; none once an orderly shutdown has ended (Table 13.4). -/
def hostWrite (pasid : Option Nat) (addr : Nat) (data : Bytes) (s : State) : State :=
  if s.pw.shutEnded then s else emit (.hostWrite pasid addr data) (cacheAtc pasid addr data.length s)

/-- A read of host memory that the device issues. -/
def hostReadAs (k : ReadKind) (pasid : Option Nat) (addr len : Nat) (s : State) : State :=
  if s.pw.shutEnded then s else emit (.hostRead k pasid addr len) (cacheAtc pasid addr len s)

/-- A read on CXL.io: Table 15.1 uses CXL.cache for doorbell lines and descriptors. -/
def hostRead : Option Nat → Nat → Nat → State → State := hostReadAs .io

/-- The request type of a read that goes out on CXL.cache in coherent mode (R371, R372, R381). -/
def State.coherent (s : State) (k : ReadKind) : ReadKind := if s.host.polling then .io else k

/-- HBM base and length of the HDM window (R360). -/
def State.hdmBase (s : State) : Nat := fld (s.word 0x10010) 0 9 * 2 ^ 30
def State.hdmLen (s : State) : Nat := fld (s.word 0x10010) 16 7 * 2 ^ 30

/-- Protected granules that an access touches (R361). -/
def State.protHit (s : State) (a n : Nat) : List Nat :=
  if n = 0 then [] else ((List.range ((a + n - 1) / 2 ^ 21 + 1 - a / 2 ^ 21)).map (· + a / 2 ^ 21)).filter s.host.prot.contains

/-- A host write of a window line would be taken: no protected granule and no locked container (R137, R361). -/
def State.hostMay (s : State) (l : Nat) : Bool :=
  (s.protHit (s.hdmBase + 64 * l) 64).isEmpty && (s.containerHit (s.hdmBase + 64 * l) 64).isEmpty

/-- A back-invalidate snoop for every line of an HBM range that the host may hold, before the device writes or reads the
range (R360).  DEDUCED (log 158): every line in the filter may be held modified; what the host writes back arrives as an
HDM_ACCESS write, and is owed for the lines that the host could write. -/
def hbmSnoop (a n : Nat) (s : State) : State :=
  let hit := s.host.filter.filter (fun l => decide (s.hdmBase + 64 * l < a + n ∧ a < s.hdmBase + 64 * l + 64))
  if hit.isEmpty then s
  else foldS hit (fun s l => emit (.backInvalidate l) s)
    (s.modHost (fun h => { h with filter := h.filter.filter (fun l => !hit.contains l)
                                  snooped := (hit.filter s.hostMay).foldl (fun t l => tset t l 0) h.snooped }))

/-- Bytes of a 64-byte line from an address that a range covers, as a mask. -/
def lineMask (line a n : Nat) : Nat := ((List.range 64).map (fun i => if a ≤ line + i ∧ line + i < a + n then 2 ^ i else 0)).sum

/-- The device has written a range of HBM: a write-back still to come does not reach those bytes (R360). -/
def ownBytes (a n : Nat) (s : State) : State :=
  if s.host.snooped.isEmpty then s
  else s.modHost (fun h => { h with snooped := h.snooped.map (fun e => (e.1, e.2 ||| lineMask (s.hdmBase + 64 * e.1) a n)) })

/-- The device's own write of HBM, with its snoops (R360). -/
def hbmStore (a : Nat) (bs : Bytes) (s : State) : State :=
  let s := hbmSnoop a bs.length s
  ownBytes a bs.length { s with hbm := memPut s.hbm a bs }

/-- A range of HBM zeroed, the containers of enabled Carriageways apart, which are whole 4 KiB blocks (R137, R360). -/
def hbmZero (a n : Nat) (s : State) : State :=
  let s := hbmSnoop a n s
  let m := if (s.containerHit a n).isEmpty then memZero s.hbm a n
    else (List.range (n / 4096)).foldl (fun m k => if (s.containerHit (a + 4096 * k) 4096).isEmpty then memZero m (a + 4096 * k) 4096 else m) s.hbm
  ownBytes a n { s with hbm := m }

/-- The write-back that the host owes for the line at an address, if it owes one: the line, and the bytes of the device's
own. -/
def State.owed (s : State) (a : Nat) : Option (Nat × Nat) :=
  if a < s.hdmBase then none else (tget s.host.snooped ((a - s.hdmBase) / 64)).map (fun m => ((a - s.hdmBase) / 64, m))

/-- MSI-X: the message, or the pending bit of a masked vector (R384). -/
def raise (v : Nat) (s : State) : State :=
  if s.host.unmasked.contains v && !s.pw.shutEnded then emit (.msix v) s
  else if s.host.msixPending.contains v then s
  else s.modHost (fun h => { h with msixPending := v :: h.msixPending })

/-- The message of a vector outside Keystones: at most one per µs, a later one waits until the µs is over (R384). -/
def raiseSpaced (v : Nat) (s : State) : State :=
  let now := s.pw.refTicks
  if (tget s.host.vecAt v).all (fun t => t + 100 ≤ now) then raise v (s.modHost (fun h => { h with vecAt := tset h.vecAt v now }))
  else if s.host.vecDue.contains v then s
  else s.modHost (fun h => { h with vecDue := h.vecDue ++ [v] })

/-- Messages that waited and whose µs is over go out (R384). -/
def raiseDue (s : State) : State :=
  foldS s.host.vecDue (fun s v => raiseSpaced v s) (s.modHost (fun h => { h with vecDue := [] }))

/-- Of the messages of a burst, newest first, each vector keeps its last (R384). -/
def lastOfVectors (seen : List Nat) : List Output → List Output
  | [] => []
  | .msix v :: r => if seen.contains v then lastOfVectors seen r else .msix v :: lastOfVectors (v :: seen) r
  | o :: r => o :: lastOfVectors seen r

/-- Each vector is raised at most once for each Keystone (R384): of what a Keystone sent since the state before it.  A
message that waited for its µs has gone out with it. -/
def onceVectors (before s : State) : State :=
  let n := s.out.length - before.out.length
  let sent := s.out.take n
  ({ s with out := lastOfVectors [] sent ++ s.out.drop n }).modHost (fun h => { h with vecDue := h.vecDue.filter (fun v => !sent.contains (.msix v)) })

/-! ### Event ring (R381, R382) -/

def State.modEvt (s : State) (f : EvtRing → EvtRing) : State := s.modHost (fun h => { h with evt := f h.evt })

/-- Entries of the event ring, and its free slots. -/
def State.evtSize (s : State) : Nat := 2 ^ s.evtf 112 5
def State.evtFree (s : State) : Nat :=
  s.evtSize - (s.host.evt.tail + 2 ^ 32 - s.host.evt.head) % 2 ^ 32

/-- One record into the event ring: record, tail, vector, in that order. -/
def evtWrite (rec_ : Bytes) (s : State) : State :=
  let i := s.host.evt.tail
  let ph := (i / s.evtSize + 1) % 2
  let s := hostWrite none (s.evtf 204 52 * 4096 + 32 * (i % s.evtSize)) (putBytes rec_ 3 [BitVec.ofNat 8 ph]) s
  let s := s.modEvt (fun e => { e with tail := (i + 1) % 2 ^ 32, wrote := (rec_ :: e.wrote).take 64 })
  let s := hostWrite none (s.evtf 152 52 * 4096 + 64) (leBytes 4 ((i + 1) % 2 ^ 32)) s
  raise (s.evtf 117 11) s

/-- An event record before its phase bit (Table 15.8). -/
def evtRecord (code die seq time : Nat) (detail : Bytes) : Bytes :=
  leBytes 2 code ++ leBytes 1 die ++ [0] ++ leBytes 4 seq ++ leBytes 8 time ++ slice detail 0 16

/-- Waiting records written as slots free, with the events-lost record in its place (R382). -/
def evtDrain (fuel : Nat) (s : State) : State :=
  match fuel with
  | 0 => s
  | k + 1 =>
    let e := s.host.evt
    if !e.enable then s
    else if e.ovf then
      match e.before with
      | none => if 2 ≤ s.evtFree then evtDrain k (s.modEvt (fun e => { e with before := some e.waiting.length })) else s
      | some 0 =>
        if 1 ≤ s.evtFree then
          let lost := evtRecord 1 0xFF e.seq s.pw.refTicks (leBytes 4 e.lostSince)
          let s := s.modEvt (fun e => { e with seq := (e.seq + 1) % 2 ^ 32, ovf := false, before := none, lostSince := 0 })
          evtDrain k (evtWrite lost s)
        else s
      | some (n + 1) =>
        match e.waiting with
        | [] => evtDrain k (s.modEvt (fun e => { e with before := some 0 }))
        | w :: r =>
          if 2 ≤ s.evtFree then evtDrain k (evtWrite w (s.modEvt (fun e => { e with waiting := r, before := some n }))) else s
    else
      match e.waiting with
      | [] => s
      | w :: r => if 1 ≤ s.evtFree then evtDrain k (evtWrite w (s.modEvt (fun e => { e with waiting := r }))) else s

/-- The device's read of the event ring's head when records wait on a full ring (R381). -/
def evtAsk (s : State) : State :=
  if s.host.evt.enable && !s.host.evt.waiting.isEmpty then hostReadAs (s.coherent .rdCurr) none (s.evtf 152 52 * 4096) 4 s else s

/-- An event is posted: written, kept on-die, or dropped and counted (R381 to R383). -/
def post (code die : Nat) (detail : Bytes) (s : State) : State :=
  let r := evtRecord code die s.host.evt.seq s.pw.refTicks detail
  let s := s.modEvt (fun e => { e with seq := (e.seq + 1) % 2 ^ 32 })
  let s :=
    if s.host.evt.waiting.length < 64 then s.modEvt (fun e => { e with waiting := e.waiting ++ [r] })
    else s.modEvt (fun e => { e with lost := satAdd 16 e.lost 1, lostSince := e.lostSince + 1, ovf := true })
  evtAsk (evtDrain 200 s)

/-! ### Rings -/

/-- The status line of a ring (Table 15.3) and then vec_cq (R369, R384). -/
def statusLine (r : Nat) (s : State) : State :=
  let x := s.ring r
  hostWrite (s.ringPasid r) (s.ctlBase r + 64)
    (leBytes 4 x.sqHead ++ leBytes 4 x.cqTail ++ leBytes 1 x.state ++ zeros 55) s

/-- One completion into the CQ, its phase bit as R368 gives. -/
def cqWrite (r : Nat) (rec_ : Bytes) (s : State) : State :=
  let i := (s.ring r).cqTail
  let n := 2 ^ s.cqLog r
  let fl := getLe rec_ 15 1 + (i / n + 1) % 2
  let s := hostWrite (s.ringPasid r) (s.cqBase r + 32 * (i % n)) (putBytes rec_ 15 (leBytes 1 fl)) s
  s.modRing r (fun x => { x with cqTail := (i + 1) % 2 ^ 32, outstanding := x.outstanding - 1, wrote := (rec_ :: x.wrote).take 64 })

/-- A completion record of Table 15.6 before its phase bit. -/
def cplRecord (tag : Bytes) (dindex kind status reason flags a b : Nat) : Bytes :=
  slice tag 0 8 ++ leBytes 4 dindex ++ leBytes 1 kind ++ leBytes 1 status ++ leBytes 1 reason ++
    leBytes 1 flags ++ leBytes 8 a ++ leBytes 8 b

/-- A descriptor completes: into the CQ, or held while the ring is in ERROR (R370). -/
def complete (r : Nat) (tag : Bytes) (dindex kind status reason flags a b : Nat) (s : State) : State :=
  let rec_ := cplRecord tag dindex kind status reason flags a b
  if (s.ring r).state == 3 then s.modRing r (fun x => { x with held := x.held ++ [rec_] })
  else if (s.ring r).state == 0 then s
  else cqWrite r rec_ s

/-- Status lines of the rings whose CQ tail differs from that of an earlier state, then their vectors,
each once (R369, R384). -/
def flushBy (send : Nat → State → State) (before s : State) : State :=
  let rs := (s.host.rings.map (·.1)).filter
    (fun r => (s.ring r).cqTail != (before.ring r).cqTail || (s.ring r).sqHead != (before.ring r).sqHead)
  let dirty := rs.filter (fun r => (s.ring r).state == 1 || (s.ring r).state == 2)
  let s := foldS dirty (fun s r => statusLine r s) s
  let vs := ((dirty.filter (fun r => (s.ring r).cqTail != (before.ring r).cqTail)).map s.vecCq).eraseDups
  foldS vs (fun s v => send v s) s

/-- Completions written outside Keystones: each vector at most once per µs. -/
def flush : State → State → State := flushBy raiseSpaced

/-- What a Keystone writes for each ring, in the order of R369: after its token data and completions the status lines,
then vec_cq and the vec_tok that the commit left due; `onceVectors` keeps each vector to one message (R384). -/
def flushKey (before s : State) : State :=
  let s := flushBy raise before s
  foldS s.host.tokDue (fun s v => raise v s) (s.modHost (fun h => { h with tokDue := [] }))

/-- A ring enters ERROR with a cause and the ring-fault event (R370): reads in flight are discarded. -/
def ringError (r cause : Nat) (s : State) : State :=
  let s := s.modRing r (fun x => { x with state := 3, cause := cause, reading := [], shared := false, awaits := false })
  post 2 0xFF (leBytes 2 r ++ leBytes 1 cause) s

/-- Lengths of the reads that fetch k descriptors from an index: each ends at a 1 KiB boundary (R371). -/
def readChunks (fuel idx k : Nat) : List (Nat × Nat) :=
  match fuel with
  | 0 => []
  | f + 1 =>
    if k = 0 then []
    else
      let n := min k (16 - idx % 16)
      (idx % 2 ^ 32, n) :: readChunks f (idx + n) (k - n)

/-- Descriptor reads issued as far as the doorbell and the CQ reservation allow (R367). -/
def tryFetch (r : Nat) (s : State) : State :=
  let x := s.ring r
  if x.state != 1 || s.ras.haltSafe && s.pw.shutEnded then s
  else
    let out := (x.reading.map (·.2)).sum
    let head := x.sqHead + out
    let avail := (x.sqTail + 2 ^ 32 - head % 2 ^ 32) % 2 ^ 32
    let used := (x.cqTail + 2 ^ 32 - x.cqHead) % 2 ^ 32 + x.outstanding + out
    let k := min avail (2 ^ s.cqLog r - used)
    let ch := readChunks (k + 1) head k
    let s := s.modRing r (fun x => { x with reading := x.reading ++ ch })
    foldS ch (fun s e => hostReadAs (s.coherent .rdCurr) (s.ringPasid r) (s.sqBase r + 64 * (e.1 % 2 ^ s.sqLog r)) (64 * e.2) s) s

/-- A doorbell line has been read: overrun check (R366), then fetching. -/
def doorbell (r sqTail cqHead : Nat) (s : State) : State :=
  let x := s.ring r
  let t := sqTail % 2 ^ 32; let h := cqHead % 2 ^ 32
  if 2 ^ s.sqLog r < (t + 2 ^ 32 - x.sqHead) % 2 ^ 32 || 2 ^ s.cqLog r < (x.cqTail + 2 ^ 32 - h) % 2 ^ 32 then
    ringError r 4 s
  else tryFetch r (s.modRing r (fun x => { x with sqTail := t, cqHead := h }))

/-- The read of a doorbell line: RdShared leaves the device a Shared copy (R371, R372). -/
def readDoorbell (r : Nat) (s : State) : State :=
  hostReadAs (s.coherent .rdShared) (s.ringPasid r) (s.ctlBase r) 64 (s.modRing r (fun x => { x with shared := !s.host.polling }))

/-- A read of a doorbell line whose data comes with a later command (R370, R373). -/
def askDoorbell (r : Nat) (s : State) : State := readDoorbell r (s.modRing r (fun x => { x with awaits := true }))

/-- Polling is in effect: force_poll or Cache_Enable clear (R372). -/
def State.wantPoll (s : State) : Bool := bit (s.word 0x10000) 0 || !s.host.cacheEn

end Sys2Proof.Machine
end

