-- ==== Sys2Proof/Machine/Flags.lean ====
section
/-! DEFINITION. Status conditions computed from the state: temperatures, currency of calibration,
accuracy-reduced operation, ALERT causes, ring and Pier status, usable Piers. -/

namespace Sys2Proof.Machine

/-! ### Temperatures -/

/-- Diodes of a die still in use (R316). -/
def State.diodesUp (s : State) (d : Nat) : Nat :=
  ((List.range 6).filter (fun i => !bit s.thm.diodeBad (6 * d + i))).length

/-- Temperature of a node for comparisons: 10 °C added on a die with fewer than 3 diodes (R316). -/
def State.nodeTemp (s : State) (d n : Nat) : Int :=
  tgetD s.thm.node (48 * d + n) 0 + (if s.diodesUp d < 3 then 10000 else 0)

/-- Modelled temperature of a Bay: that of its node (Table 13.2). -/
def State.bayTemp (s : State) (b : Nat) : Int := s.nodeTemp (b / 256) (b % 256 / 8)

/-- Every die and node. -/
def allNodes : List (Nat × Nat) := (List.range 8).flatMap (fun d => (List.range 48).map (fun n => (d, n)))

/-- Some node lies outside 0 °C to 95 °C (R319, Table 18.6). -/
def State.outsideJunction (s : State) : Bool :=
  allNodes.any (fun e => s.nodeTemp e.1 e.2 > 95000 || s.nodeTemp e.1 e.2 < 0)

/-! ### Calibration -/

/-- READY physical Piers of a Bay. -/
def Bay.ready (b : Bay) : List Nat := (List.range 17).filter (fun p => (b.pier p).state == 2)
/-- READY and UNPROGRAMMED Piers: those that a pass covers (R283). -/
def Bay.passPiers (b : Bay) : List Nat := (List.range 17).filter (fun p => (b.pier p).state == 2 || (b.pier p).state == 0)

/-- The pass whose trims a Pier holds: whether it ran against VREF_CAL, its service beat and its temperature.  DEDUCED: trims
that stand staged are held, since a Bay becomes current as soon as its pass completes (R282, R288; log 214). -/
def Pier.pass (x : Pier) : Option (Bool × Nat × Int) :=
  match x.staged with
  | some t => some (t.vref, t.beat, t.temp)
  | none => x.passBeat.map (fun b => (x.passVref, b, x.passTemp))

/-- Service beat and temperature of the oldest pass that counts under R285, which ran against VREF_CAL: over the READY Piers,
or the Bay's own record when no Pier is READY. -/
def Bay.oldest (b : Bay) : Option (Nat × Int) :=
  match b.ready with
  | [] => b.calVref
  | rs => rs.foldl (fun a p =>
      match (b.pier p).pass with
      | some (true, t, temp) => (match a with
        | none => some (t, temp)
        | some (u, w) => if t < u then some (t, temp) else some (u, w))
      | _ => a) none

/-- A Bay's calibration is current (R285). -/
def State.calCurrent (s : State) (bn : Nat) : Bool :=
  let b := s.bay bn
  (b.ready.all (fun p => (b.pier p).pass.any (·.1))) &&
  match b.oldest with
  | none => false
  | some (t, temp) =>
    decide ((s.bayTemp bn - temp).natAbs ≤ 1000 * s.calf 16 8) && decide (serviceBeat s - t < 2 ^ s.calf 32 8)

/-! ### Bays and spares -/

/-- A Pier is usable: not FENCED, its Bay and its Span in service (R262). -/
def State.spanOut (s : State) (sp : Nat) : Bool := bit s.ras.spanFenced sp
/-- The group of a fenced Girder is out of service (R263). -/
def State.groupOut (s : State) (sp g : Nat) : Bool := (s.girder (girNo sp g)).fenced
def State.bayOut (s : State) (b : Nat) : Bool :=
  (s.bay b).fenced || s.spanOut (b / 256) || s.groupOut (b / 256) (b % 256 / 4)
def State.usablePiers (s : State) (b : Nat) : Nat :=
  if s.bayOut b then 0 else ((List.range 17).filter (fun p => ((s.bay b).pier p).state != 3)).length

/-- spare_phys: the Pier neither mapped nor FENCED, 31 when there is none (PIER_BAY_MAP). -/
def State.sparePhys (s : State) (b : Nat) : Nat :=
  if s.bayOut b then 31
  else ((List.range 17).find? (fun p => !(s.bay b).map.contains p && ((s.bay b).pier p).state != 3)).getD 31

/-- Shown state of a physical Pier: FENCED in a Bay out of service (R263). -/
def State.pstate (s : State) (b p : Nat) : Nat := if s.bayOut b then 3 else (s.pier b p).state

/-- Physical Pier of a logical Pier under the Bay's remap (R76). -/
def State.phys (s : State) (b l : Nat) : Nat := (s.bay b).map.getD l 0

/-- The shadow that the current descriptor of a logical Pier names: the owning Carriageway, its layer and the HBM
address (R73). -/
def State.shadow (s : State) (b l : Nat) : Option (Nat × Nat × Nat) := tget (s.bay b).desc l

/-- A fence of a unit stops this Carriageway (R440, R262, R263). -/
def State.unitUsed (s : State) (c : Nat) (u : WinUnit) : Bool :=
  s.enabled c && match u with
  | .pier sp b _ => s.beats c (bayNo sp b)
  | .bay sp b => s.uses c (bayNo sp b)
  | .girder sp g => s.usesGroup c sp g
  | .span sp => s.usesSpan c sp
  | _ => false

/-! ### Frequency, gaps and accuracy -/

/-- Smallest fused Fmax over the Spans that are not fenced (PWR_FMAX.min_step). -/
def State.minStep (s : State) : Nat :=
  (((List.range 6).filter (fun i => !s.spanOut i)).map fmax).foldl min 48

/-- Requested pacing gap of the device: cap, thermal, or pace_max under the floor (R303). -/
def State.paceGap (s : State) : Nat :=
  if s.pw.floor || s.pw.vrAlert then s.paceMax else max s.pw.capGap s.pw.thermGap

/-- A member reports accuracy-reduced operation now (R286, R319). -/
def State.accReduced (s : State) (c : Nat) : Bool :=
  s.vref.faulted || s.outsideJunction ||
  (List.range 1536).any (fun b => s.grantsBay c b && !s.calCurrent b)

/-- Halt-safe with every Carriageway stopped: no body, refresh, calibration or inspection runs (R268). -/
def State.halted (s : State) : Bool := s.ras.haltSafe && !s.enabledCwys.any (fun c => s.inState c [.running, .stopping])

/-- A slew has not completed (R300). -/
def State.glideBusy (s : State) : Bool := s.pw.slew.isSome

/-- The glide owner (R300). -/
def State.glideOwner (s : State) : Option Nat :=
  (List.range 64).find? (fun c => s.inState c [.running, .stopping])

/-! ### Time -/

/-- Picoseconds of the core cycles that skipping takes from one tick (R303, R304). -/
def skipPs (p : Power) : Nat :=
  if p.droop ≠ 0 then 5000 else if p.floor then 10000 * (16 - floorK p.curStep) / 16 else 0

/-- Executed picoseconds of one tick times the frequency steps that the device runs below its target (R314). -/
def slowPs (p : Power) : Nat := (10000 - skipPs p) * (p.target - p.curStep)

/-- Exempt time that n ticks in a body add: the cycles skipped, and what its executed cycles take longer than at the
target (R314). -/
def addExempt (n c : Nat) (s : State) : State :=
  s.modEn (fun x => { x with exempt := tmod x.exempt c 0 (· + n * skipPs s.pw)
                             slow := tmod x.slow (64 * c + s.pw.target) 0 (· + n * slowPs s.pw) })

/-- Exempt time of a Carriageway in ps.  A frequency is 12.5 MHz times 96 + its step (R289), so the part of an executed
time that a target would have saved is the steps below it over 96 + target. -/
def State.exemptPs (s : State) (c : Nat) : Nat :=
  tgetD s.en.exempt c 0 + ((s.en.slow.filter (fun e => e.1 / 64 == c)).map (fun e => e.2 / (96 + e.1 % 64))).sum

/-- n reference ticks pass. -/
def elapse (n : Nat) (s : State) : State :=
  let s := if skipPs s.pw = 0 ∧ slowPs s.pw = 0 then s
    else foldS ((List.range 64).filter (fun c => (s.cwy c).run.inBody)) (fun s c => addExempt n c s) s
  s.modPw (advance n)

/-! ### ALERT causes (R408) -/

def State.alertBits (s : State) : Nat :=
  s.chain.alertLatch |||
  (if s.ras.haltSafe then 2 else 0) ||| (if s.thm.shut then 4 else 0) |||
  (if s.mgt.stage == 0xF then 32 else 0) ||| (if s.mgt.stage == 0xE then 64 else 0)

/-! ### Beat checks on exact targets -/

/-- ⌊y / 2^s⌋ and ⌈y / 2^s⌉. -/
def floorDiv (y : Int) (sh : Nat) : Int := y / (2 ^ sh : Int)
def ceilDivI (y : Int) (sh : Nat) : Int := -((-y) / (2 ^ sh : Int))

/-- Clamp limits of a weight mode (R29): 0 is 4-bit, 1 is 2-bit. -/
def loOf (mode : Nat) : Int := if mode = 0 then -128 else -32
def hiOf (mode : Nat) : Int := if mode = 0 then 127 else 31

/-- A rail code (section 2, saturation repair). -/
def isRail (mode : Nat) (c : Int) : Bool := c == loOf mode || c == hiOf mode

/-- A code is one of the two faithful roundings of y / 2^s (R29, R62, R232). -/
def faithful (mode : Nat) (y : Int) (sh : Nat) (c : Int) : Bool :=
  c == clampI (floorDiv y sh) (loOf mode) (hiOf mode) || c == clampI (ceilDivI y sh) (loOf mode) (hiOf mode)

/-- Rounding half towards plus infinity (section 2). -/
def rnd (t : Int) (g : Nat) : Int := if g = 0 then t else (t + (2 ^ (g - 1) : Int)) / (2 ^ g : Int)

/-- The trimmed fine value of a raw reading (R59). -/
def trimFine (r o : Int) (g : Nat) : Int := ((r - o) * (g : Int) + 8192) / 16384

/-- The delivered code of a fine value (R59). -/
def codeOf (mode : Nat) (t : Int) : Int := clampI (rnd t 3) (loOf mode) (hiOf mode)

end Sys2Proof.Machine
end

