-- ==== Sys2Proof/Machine/CertOps.lean ====
section
/-! DEFINITION. Result certificates, retraction notices, the Merkle window and the responses of
FETCH_CERT (section 10). -/

namespace Sys2Proof.Machine

/-- Ticks of a window (R248). -/
def windowTicks : Nat := 1000000

/-- The window of the present time (R248). -/
def State.nowWindow (s : State) : Nat := s.pw.refTicks / windowTicks

/-- Window that holds the issue time of a leaf, read from its bytes. -/
def Leaf.win (l : Leaf) : Nat := if l.notice then getLe l.bytes 24 8 else getLe l.bytes 32 8

/-- Bytes that a closed window takes in the certificate store. -/
def Window.size (w : Window) : Nat := 3456 + (w.leaves.map (·.bytes.length)).sum

/-- The certificate store in granules: first and count (R251). -/
def storeGran : Nat × Nat := (380 * 512, 4 * 512)

/-- 2 MiB granules of the certificate store in use, the open window's leaves among it, which its writes protect (R361). -/
def protectStore (s : State) : State :=
  let n := ceilDiv ((s.certs.closed.map Window.size).sum + (s.certs.leaves.map (·.bytes.length)).sum) (2 ^ 21)
  let gs := (List.range (min n storeGran.2)).map (· + storeGran.1)
  s.modHost (fun h => { h with prot := h.prot ++ gs.filter (fun g => !h.prot.contains g) })

/-- A new leaf takes the next serial and its place in the store. -/
def addLeaf (l : Leaf) (s : State) : State :=
  protectStore (s.modCerts (fun c => { c with leaves := c.leaves ++ [l], serial := c.serial + 1 }))

/-- The certificate of an ending request (Tables 10.3, 10.4). -/
def certBytes (s : State) (h : Nat) (q : Req) (status : Nat) : Bytes :=
  let k := q.cert; let n := k.counts
  let lf := (s.cwy q.cwy).life
  let flags := b2n k.accRed + 2 * b2n k.rebuilt + 4 * b2n (!k.vchg.isEmpty) + 8 * b2n k.runTrunc +
    16 * b2n k.vTrunc + 32 * b2n q.spandrel.isSome + 64 * b2n k.spec
  let vec := padTo 16 (k.versions.flatMap (leBytes 4))
  let chg := k.vchg.flatMap (fun e => leBytes 8 e.1 ++ leBytes 2 e.2.1 ++ [0, 0] ++ leBytes 4 e.2.2)
  let runs := k.runs.flatMap (fun e => leBytes 4 e.1 ++ leBytes 4 e.2.1 ++ leBytes 2 e.2.2.1 ++ leBytes 2 e.2.2.2 ++ zeros 4)
  let body := vec ++ chg ++ runs
  leBytes 4 0x43524E58 ++ leBytes 2 1 ++ leBytes 1 status ++ leBytes 1 flags ++
  leBytes 8 (512 + body.length) ++ leBytes 8 s.certs.serial ++ leBytes 4 s.ledger.boot ++ zeros 4 ++
  leBytes 8 s.nowWindow ++ slice q.par.tag 0 8 ++ leBytes 8 q.seq ++ leBytes 4 h ++ leBytes 2 q.tenant ++
  leBytes 1 q.cwy ++ zeros 1 ++ deviceTag ++ slice lf.buildId 0 16 ++ slice k.wset 0 64 ++ slice k.spDigest 0 64 ++
  leBytes 8 (k.first.getD 0xFFFFFFFFFFFFFFFF) ++ leBytes 8 lf.step ++ leBytes 4 lf.aborts ++
  leBytes 4 q.par.promptLen ++ leBytes 4 q.prefix_ ++ leBytes 4 q.gen.length ++ leBytes 8 k.replays ++
  leBytes 4 k.grants ++ leBytes 4 k.denials ++ leBytes 8 n.clips ++ leBytes 8 n.unrep ++ leBytes 8 n.sentPass ++
  leBytes 8 n.csumPass ++ leBytes 8 n.csumSkip ++ leBytes 8 n.gsumPass ++ leBytes 8 n.gsumSkip ++
  leBytes 8 n.sampPass ++ leBytes 8 k.seals ++ leBytes 8 s.pw.refTicks ++ leBytes 2 k.versions.length ++
  leBytes 2 k.vchg.length ++ leBytes 4 k.runs.length ++ leBytes 4 k.spVersion ++ zeros 148 ++ body

/-- The lead issues the certificate of an ending request (R245). -/
def issueCert (h : Nat) (q : Req) (status : Nat) (s : State) : State :=
  addLeaf { serial := s.certs.serial, bytes := certBytes s h q status, notice := false, owner := q.tenant } s

/-- A retraction notice (Table 10.2): unit code, die, Bay and index as the table names them. -/
def noticeBytes (s : State) (c u die bay idx first last : Nat) : Bytes :=
  leBytes 4 0x52544E58 ++ leBytes 2 1 ++ leBytes 1 u ++ zeros 1 ++ leBytes 8 s.certs.serial ++
  leBytes 4 s.ledger.boot ++ zeros 4 ++ leBytes 8 s.nowWindow ++ leBytes 8 first ++ leBytes 8 last ++
  leBytes 1 c ++ leBytes 1 die ++ leBytes 1 bay ++ leBytes 1 idx ++ zeros 12 ++ deviceTag ++
  slice (s.cwy c).life.buildId 0 16 ++ zeros 32

/-- First step of the last 1,415,000 live beats of a Pier (R244): the newest record, at each multiple of
65,536 live beats, that lies at least so many beats back; else the step of its first live beat. -/
def firstLive (p : Pier) : Option Nat :=
  match p.marks with
  | [] => none
  | ms =>
    let idx := (List.range ms.length).find? (fun i => 1415000 ≤ p.live - (ms.length - 1 - i) * 65536)
    some (match idx with | some i => ms.getD i 0 | none => ms.getLastD 0)

/-- Physical Piers of a fenced unit. -/
def unitPiers : WinUnit → List (Nat × Nat)
  | .pier sp b p => [(bayNo sp b, p)]
  | .bay sp b => (List.range 17).map (fun p => (bayNo sp b, p))
  | .span sp => (List.range 256).flatMap (fun b => (List.range 17).map (fun p => (bayNo sp b, p)))
  | _ => []

/-- The retraction notice of one Carriageway for a fenced unit, with its event (R244). -/
def retract (u : WinUnit) (c : Nat) (s : State) : State :=
  let lf := (s.cwy c).life
  if lf.sealed = 0 then s
  else
    let last := lf.step - 1
    let back := if lf.sealed ≤ 4096 then lf.step - lf.sealed else lf.step - 4096
    let lives := (unitPiers u).filterMap (fun e => firstLive (s.pier e.1 e.2))
    let first := lives.foldl min back
    let k := match u with
      | .pier sp b p => (0, sp, b, p)
      | .bay sp b => (1, sp, b, 0)
      | .span sp => (2, sp, 0, 0)
      | .girder sp g => (3, sp, 0, g)
      | _ => (0, 0, 0, 0)
    let n := s.certs.serial
    let s' := addLeaf { serial := n, bytes := noticeBytes s c k.1 k.2.1 k.2.2.1 k.2.2.2 first last, notice := true, owner := c } s
    let s' := s'.modCerts (fun x => { x with retract := satAdd 16 x.retract 1 })
    post 0x23 k.2.1 (leBytes 8 n) s'

/-! ### Merkle windows (R248) -/

def leafHash (l : Leaf) : Bytes := shake 32 (0 :: l.bytes)
def nodeHash (a b : Bytes) : Bytes := shake 32 (1 :: (a ++ b))

/-- One level up: pairs in order, an odd last node carried up unchanged. -/
def merkleLevel : List Bytes → List Bytes
  | a :: b :: r => nodeHash a b :: merkleLevel r
  | l => l

/-- The root of the hashes of a window; 32 zero bytes for a window with no leaves. -/
def merkleRoot (fuel : Nat) (hs : List Bytes) : Bytes :=
  match fuel with
  | 0 => hs.headD (zeros 32)
  | k + 1 => if hs.length ≤ 1 then hs.headD (zeros 32) else merkleRoot k (merkleLevel hs)

/-- The proof hashes of leaf i in the order in which verify consumes them. -/
def merkleProof (fuel : Nat) (hs : List Bytes) (i : Nat) : List Bytes :=
  match fuel with
  | 0 => []
  | k + 1 =>
    if hs.length ≤ 1 then []
    else
      let sib := if i % 2 = 1 then [hs.getD (i - 1) []] else if i + 1 < hs.length then [hs.getD (i + 1) []] else []
      sib ++ merkleProof k (merkleLevel hs) (i / 2)

/-- Bytes 0 to 127 of a window record (Table 10.5). -/
def recordHead (s : State) (w : Window) (wstatus : Nat) : Bytes :=
  let hs := w.leaves.map leafHash
  leBytes 4 0x57574E58 ++ leBytes 2 1 ++ leBytes 1 wstatus ++ zeros 1 ++ leBytes 8 w.num ++ leBytes 4 s.ledger.boot ++
  leBytes 4 (w.leaves.filter (·.notice)).length ++ leBytes 8 w.leaves.length ++ deviceTag ++ zeros 16 ++
  merkleRoot hs.length hs ++ slice s.certs.prev 0 32

/-- The device's signature of a window record, over the 64-byte SHAKE256 digest of bytes 0 to 127 (R249). -/
def recordSign (s : State) (w : Window) : Bytes := idSign (shake 64 (recordHead s w 0))

/-- The whole record with a signature of 3,309 bytes (zero when unsigned). -/
def windowRecord (s : State) (w : Window) (wstatus : Nat) (sig : Bytes) : Bytes :=
  recordHead s w wstatus ++ leBytes 2 1 ++ leBytes 2 3309 ++ zeros 12 ++ slice sig 0 3309 ++ zeros 3

/-- Whole windows dropped, oldest first, while more than 4 GiB is held (R251). -/
def reclaim (ws : List Window) : List Window :=
  match ws with
  | [] => []
  | w :: r => if 2 ^ 32 < ((w :: r).map Window.size).sum then reclaim r else w :: r

/-! ### FETCH_CERT (R252, R253) -/

/-- The 64-byte response header. -/
def fetchHead (res wst len idx cnt proofs : Nat) : Bytes :=
  leBytes 1 res ++ leBytes 1 wst ++ zeros 6 ++ leBytes 8 len ++ leBytes 8 idx ++ leBytes 8 cnt ++ leBytes 4 proofs ++ zeros 28

/-- The response is written and its completion follows at the next lapse of time (R364, R380). -/
def fetchWrite (f : Fetch) (hd items : Bytes) (s : State) : State :=
  let p := s.ringPasid f.ring
  let s := hostWrite p f.dest hd s
  let s := s.when (!items.isEmpty) (hostWrite p (f.dest + 64) items)
  s.modCerts (fun c => { c with done := c.done ++ [(f, 64 + items.length)] })

/-- Result 1: not held. -/
def fetchNone (f : Fetch) (s : State) : State := fetchWrite f (fetchHead 1 0 0 0 0 0) [] s

/-- A response within or beyond cap. -/
def fetchItem (f : Fetch) (wst len idx cnt proofs : Nat) (items : Bytes) (s : State) : State :=
  if f.cap < 64 + items.length then fetchWrite f (fetchHead 2 wst len idx cnt proofs) [] s
  else fetchWrite f (fetchHead 0 wst len idx cnt proofs) items s

/-- The Carriageway of a notice is one to which the ring's tenant is bound; a certificate is its own. -/
def State.fetchAllowed (s : State) (f : Fetch) (l : Leaf) : Bool :=
  let t := s.ringOwner f.ring
  if l.notice then (s.tenant t).bound && s.tenCwy t == l.owner else l.owner == t

/-- Serve a fetch from a window that has its record. -/
def fetchFrom (f : Fetch) (w : Window) (rec_ : Bytes) (s : State) : State :=
  if f.sel = 1 then fetchItem f (getLe rec_ 6 1) 3456 0 w.leaves.length 0 rec_ s
  else
    match w.leaves.findIdx? (fun l => l.serial == f.key) with
    | none => fetchNone f s
    | some i =>
      let l := w.leaves.getD i { serial := 0, bytes := [], notice := false, owner := 0 }
      let hs := w.leaves.map leafHash
      let pr := merkleProof hs.length hs i
      fetchItem f (getLe rec_ 6 1) l.bytes.length i w.leaves.length pr.length (l.bytes ++ pr.flatten ++ rec_) s

/-- A validated FETCH_CERT: served, refused a result, or left waiting for its window (R253). -/
def fetchServe (f : Fetch) (s : State) : State :=
  let ws := s.certs.closed
  let wait := s.modCerts (fun c => { c with waiting := c.waiting ++ [f] })
  if f.sel = 1 then
    match ws.find? (fun w => w.num == f.key) with
    | some w => match w.rec_ with | some r => fetchFrom f w r s | none => wait
    | none => if f.key == s.certs.window then wait else fetchNone f s
  else
    match s.certs.leaves.find? (fun l => l.serial == f.key) with
    | some l => if s.fetchAllowed f l then wait else fetchNone f s
    | none =>
      match ws.find? (fun w => w.leaves.any (fun l => l.serial == f.key)) with
      | none => fetchNone f s
      | some w =>
        if w.leaves.any (fun l => l.serial == f.key && s.fetchAllowed f l) then
          match w.rec_ with | some r => fetchFrom f w r s | none => wait
        else fetchNone f s

/-- Waiting fetches of a window that has got its record are served. -/
def fetchWake (w : Window) (rec_ : Bytes) (s : State) : State :=
  let hit := fun (f : Fetch) => if f.sel = 1 then f.key == w.num else w.leaves.any (fun l => l.serial == f.key)
  let go := s.certs.waiting.filter hit
  let s := s.modCerts (fun c => { c with waiting := c.waiting.filter (fun f => !hit f) })
  foldS go (fun s f => fetchFrom f w rec_ s) s

/-- Completions of fetches whose writes have gone out (R252). -/
def fetchDone (s : State) : State :=
  match s.certs.done with
  | [] => s
  | ds =>
    let s' := s.modCerts (fun c => { c with done := [] })
    flush s (foldS ds (fun s e => complete e.1.ring e.1.tag e.1.dindex 6 0 0 0 e.2 0 s) s')

end Sys2Proof.Machine
end

