-- ==== Sys2Proof/Machine/KvOps.lean ====
section
/-! DEFINITION. Key-value frames, prefix nodes, reservations and table-region accounting of one
Carriageway (section 8), and the end of a request. -/

namespace Sys2Proof.Machine

/-- A request without a ring: a companion of R173, or one that a member tracks for its lead (R156). -/
def Req.isComp (q : Req) : Bool := q.par.ring == 0xFFFFFFFF

/-- Pages of a request over its whole context: P of R187. -/
def Req.pagesAll (q : Req) : Nat := ceilDiv (q.par.promptLen + q.par.maxNew) 16

/-- Table-region bytes of a request's page-table chunks (R186). -/
def Req.chunkBytes (q : Req) : Nat := 4096 * (1 + ceilDiv q.pagesAll 1024)

/-- Reservation per ring position for h pages supplied by the prefix tree (R187). -/
def State.resvFor (s : State) (c p h : Nat) : Nat := ceilDiv (p - h) (max 1 (s.ringSize c))

/-- Free frames at a ring position. -/
def State.freeFrames (s : State) (c pos : Nat) : Nat := s.nFrames c - (tgetD (s.cwy c).kv.used pos []).length

/-- Nodes with a count of 0 whose frame lies at a position, in eviction order (R197). -/
def State.evictable (s : State) (c pos : Nat) : List (Nat × Node) :=
  let ns := (s.cwy c).kv.nodes.filter (fun e => e.2.refs == 0 && e.2.pos == pos)
  ns.foldr (fun e acc => (acc.takeWhile (fun x => x.2.lastUse < e.2.lastUse || x.2.lastUse == e.2.lastUse && x.1 < e.1)) ++
    e :: (acc.dropWhile (fun x => x.2.lastUse < e.2.lastUse || x.2.lastUse == e.2.lastUse && x.1 < e.1))) []

/-- What is left of a request's reservation at a position. -/
def Req.resvAt (q : Req) (pos : Nat) : Nat :=
  match q.resv with
  | some t => tgetD t pos 0
  | none => 0

/-- Unused reservations at a position of every live request of the Carriageway. -/
def State.resvUsed (s : State) (c pos : Nat) : Nat :=
  ((s.reqs.filter (fun e => e.2.cwy == c)).map (fun e => e.2.resvAt pos)).sum

/-- A: the smallest A_q over the ring (R187), as an integer. -/
def State.availFrames (s : State) (c : Nat) : Int :=
  let a := fun p => (s.freeFrames c p : Int) + ((s.evictable c p).length : Int) - (s.resvUsed c p : Int)
  (List.range (max 1 (s.ringSize c))).foldl (fun m p => min m (a p)) (a 0)

/-- The difference whose positive part is the bounded reserve of R188. -/
def State.boundedRaw (s : State) (c : Nat) : Int :=
  let rs := max 1 (s.ringSize c)
  let want := ((List.range 1024).filter (fun t => (s.tenant t).bound && s.tenCwy t == c && s.bounded t)).map
    (fun t => s.tenActive t * ceilDiv (ceilDiv (s.tenCtx t) 16) rs)
  let have_ := (s.reqs.filter (fun e => e.2.cwy == c && s.bounded e.2.tenant)).map
    (fun e => e.2.resv0)
  (want.sum : Int) - (have_.sum : Int)

/-- Bounded reserve of R188: 0 when negative. -/
def State.boundedReserve (s : State) (c : Nat) : Int := max 0 (s.boundedRaw c)

/-- Table-region bytes free for chunks and far metadata at a ring position (R186). -/
def State.tabFreeAt (s : State) (c pos : Nat) : Int :=
  (s.tabLen c : Int) - 164 * (s.nFrames c : Int) - ((s.cwy c).kv.chunks : Int) - ((tgetD (s.cwy c).kv.meta_ pos 0 : Nat) : Int)

/-- The least that is free at any position: chunks are taken on every member alike. -/
def State.tabFree (s : State) (c : Nat) : Int :=
  (List.range (max 1 (s.ringSize c))).foldl (fun m p => min m (s.tabFreeAt c p)) (s.tabFreeAt c 0)

/-- The lowest number not in a list. -/
def lowestFree (l : List Nat) : Nat := ((List.range (l.length + 1)).find? (fun n => !l.contains n)).getD l.length

/-- One reference less to a node; a node keeps its record until it is evicted (R197). -/
def dropRef (c n : Nat) (s : State) : State :=
  s.modKv c (fun k => match tget k.nodes n with
    | some x => { k with nodes := tset k.nodes n { x with refs := x.refs - 1 } }
    | none => k)

/-- One reference more to a node. -/
def addRef (c n : Nat) (s : State) : State :=
  s.modKv c (fun k => match tget k.nodes n with
    | some x => { k with nodes := tset k.nodes n { x with refs := x.refs + 1 } }
    | none => k)

/-- A node is used by a bind or a pin: its last use is the present step number (R197). -/
def useNode (c n : Nat) (s : State) : State :=
  let st := (s.cwy c).life.step
  s.modKv c (fun k => match tget k.nodes n with
    | some x => { k with nodes := tset k.nodes n { x with lastUse := st } }
    | none => k)

/-- A lookup pins a node (R195). -/
def pinNode (c n : Nat) (s : State) : State := useNode c n (addRef c n s)

/-- A frame is freed at a position. -/
def freeFrame (c pos f : Nat) (s : State) : State :=
  s.modKv c (fun k => { k with used := tset k.used pos ((tgetD k.used pos []).filter (· != f)) })

/-- A node is evicted: handle and frame freed, its parent released (R197). -/
def evictNode (c n : Nat) (s : State) : State :=
  match tget (s.cwy c).kv.nodes n with
  | none => s
  | some x =>
    let s := s.modKv c (fun k => { k with nodes := tdel k.nodes n })
    let s := freeFrame c x.pos x.frame s
    if x.parent == 0xFFFFFFFF then s else dropRef c x.parent s

/-- One node of a position is evicted to make room: the first evictable one, or, on a member that is not the lead, the
first there of the nodes that the lead evicts (R197, R198). -/
def makeRoom (c pos : Nat) (evs : Option (List Nat)) (s : State) : State :=
  match evs with
  | none => (match s.evictable c pos with
    | [] => s
    | e :: _ => evictNode c e.1 s)
  | some l => (match l.find? (fun n => match tget (s.cwy c).kv.nodes n with | some x => x.pos == pos | none => false) with
    | some n => evictNode c n s
    | none => s)

/-- A frame is allocated at a position, the lowest free, evicting when none is free (R187, R197). None:
the position lacks a frame. -/
def allocFrame (c pos : Nat) (evs : Option (List Nat)) (s : State) : Option Nat × State :=
  let s := if s.freeFrames c pos = 0 then makeRoom c pos evs s else s
  if s.freeFrames c pos = 0 then (none, s)
  else
    let u := tgetD (s.cwy c).kv.used pos []
    let f := lowestFree u
    (some f, s.modKv c (fun k => { k with used := tset k.used pos (f :: u) }))

/-- Byte address of a frame's block (R182): KV ordinal and head give the block number. -/
def State.frameAddr (s : State) (c f blk : Nat) : Nat :=
  s.carveBase c + s.poolBase c + f * s.frameSize c + 4096 * blk

/-- The ring position that holds a page, and whether it is this member's (R206). -/
def State.pagePos (s : State) (c page : Nat) : Nat := page % max 1 (s.ringSize c)
def State.holds (s : State) (c page : Nat) : Bool := s.pagePos c page == s.ringPos c

/-- The page-table entry of a page on this member (Table 8.1): loc 0 for a page that another position holds (R206).
It stands in a chunk of the table region (R185). -/
def State.pageEntry (s : State) (c : Nat) (q : Req) (page : Nat) : Nat :=
  match tget q.pages page with
  | some (loc, i) => if s.holds c page then loc * 2 ^ 30 + i % 2 ^ 30 else 0
  | none => 0

/-- The record of a prefix node (Table 8.3, R198): tokens and hash on the lead only, and no frame on a member that does
not hold its page. -/
def State.nodeRecord (s : State) (c : Nat) (x : Node) : Bytes :=
  let lead := s.isLead c
  slice (if lead then x.hash else []) 0 8 ++ leBytes 4 x.parent ++ leBytes 4 (if x.pos == s.ringPos c then x.frame else 0xFFFFFFFF) ++
    leBytes 4 x.refs ++ zeros 4 ++ leBytes 8 x.lastUse ++
    slice (if lead then x.toks.flatMap (leBytes 4) else []) 0 64 ++ zeros 32

/-- The frame of a page whose entry is a pool frame or a prefix node. -/
def State.pageFrame (s : State) (c : Nat) (q : Req) (page : Nat) : Option Nat :=
  match tget q.pages page with
  | some (1, f) => some f
  | some (3, n) => (tget (s.cwy c).kv.nodes n).map (·.frame)
  | _ => none

/-- The device's own HBM write: the granules it protects are marked (R361), and the container of an enabled Carriageway is
read-only to it (R137). -/
def ownWrite (a : Nat) (bs : Bytes) (s : State) : State :=
  if !(s.containerHit a bs.length).isEmpty then s else
  let g0 := a / 2 ^ 21; let g1 := (a + bs.length - 1) / 2 ^ 21
  let gs := (List.range (g1 + 1 - g0)).map (· + g0)
  (hbmStore a bs s).modHost (fun h => { h with prot := h.prot ++ gs.filter (fun g => !h.prot.contains g) })

/-- An open block is written out: the valid positions only (R193); it is freed once visible. -/
def writeOpen (c : Nat) (o : OpenBlk) (s : State) : State :=
  match s.req o.handle with
  | none => s
  | some q =>
    match s.pageFrame c q o.page with
    | none => s
    | some f =>
      let a := s.frameAddr c f o.blk
      let s := foldS ((List.range 16).filter (bit o.mask)) (fun s t => ownWrite (a + 256 * t) (memBytes o.data (256 * t) 256) s) s
      s.modKv c (fun k => { k with open_ := k.open_.map (fun x => if x == o then { x with writing := true } else x) })

/-- Open blocks of a request, or of one of its pages, are written out. -/
def writeOpens (c : Nat) (sel : OpenBlk → Bool) (s : State) : State :=
  foldS ((s.cwy c).kv.open_.filter (fun o => sel o && !o.writing)) (fun s o => writeOpen c o s) s

/-- Far frames of a request freed with their metadata, at every ring position (R186, R203). -/
def freeFar (q : Req) (s : State) : State :=
  let n := 24 * (s.kvLayers q.cwy * s.kvHeads q.cwy)
  foldS q.farOf (fun s e =>
    let pos := s.pagePos q.cwy e.1
    (s.modTenant q.tenant (fun t => { t with far := tmod t.far pos [] (fun l => l.filter (· != e.2)) })).modKv q.cwy
      (fun k => { k with meta_ := tmod k.meta_ pos 0 (· - n) })) s

/-! ### The table region (R185, R186, R198) -/

/-- HBM address of a 4 KiB chunk of the table region.  DESIGN CHOICE: the spec places neither records nor chunks in the
region; node records stand at its start by handle, and the chunks after the 164 bytes for each frame (log 93). -/
def State.chunkAddr (s : State) (c n : Nat) : Nat :=
  s.carveBase c + s.tabBase c + (164 * s.nFrames c + 4095) / 4096 * 4096 + 4096 * n
/-- DESIGN CHOICE: 128 bytes for each handle, also where a ring of several positions has more nodes than the 164 bytes for each
frame of this pool hold (log 210). -/
def State.nodeAddr (s : State) (c n : Nat) : Nat := s.carveBase c + s.tabBase c + 128 * n
/-- The 24 bytes of a far block's tag and counter: DESIGN CHOICE, from the end of the region down (log 93). -/
def State.metaAddr (s : State) (c k : Nat) : Nat := s.carveBase c + s.tabBase c + s.tabLen c - 24 * (k + 1)

/-- Bytes of the table region brought up to date. -/
def tableWrite (a : Nat) (bs : Bytes) (s : State) : State := if memBytes s.hbm a bs.length = bs then s else ownWrite a bs s

/-- A request holds at least n chunks, each the lowest free. -/
def growChunks (c h n : Nat) (s : State) : State :=
  foldS (List.range (n - (tgetD (s.cwy c).kv.chunkOf h []).length)) (fun s _ => s.modKv c (fun k =>
    { k with chunkOf := tmod k.chunkOf h [] (· ++ [lowestFree (k.chunkOf.flatMap (·.2))]) })) s

/-- The root chunk and the entry chunks that a request holds, whole, as its pages stand (Table 8.1). -/
def syncReq (c h : Nat) (s : State) : State :=
  match s.req h with
  | none => s
  | some q =>
    let s := if q.pages.isEmpty then s else growChunks c h ((q.pages.map (·.1)).foldl max 0 / 1024 + 2) s
    let own := tgetD (s.cwy c).kv.chunkOf h []
    if own.isEmpty then s
    else
      let s := tableWrite (s.chunkAddr c (own.headD 0)) (slice ((own.drop 1).flatMap (leBytes 4)) 0 4096) s
      foldS (List.range (own.length - 1)) (fun s k =>
        tableWrite (s.chunkAddr c (own.getD (k + 1) 0)) ((List.range 1024).flatMap (fun i => leBytes 4 (s.pageEntry c q (1024 * k + i)))) s) s

/-- The tag and the counter of every far block (R202). -/
def syncMeta (c : Nat) (s : State) : State :=
  let l := (s.cwy c).kv.far
  foldS (List.range l.length) (fun s k => match l[k]? with
    | some (_, _, _, n, tag) => tableWrite (s.metaAddr c k) (slice tag 0 16 ++ leBytes 8 n) s
    | none => s) s

/-- The table region after a Keystone: every page-table entry, every node record and what far blocks need (R185, R198,
R202). -/
def syncTables (c : Nat) (s : State) : State :=
  if s.kvLayers c = 0 then s
  else
    let s := foldS ((s.reqs.filter (fun e => e.2.cwy == c)).map (·.1)) (fun s h => syncReq c h s) s
    syncMeta c (foldS (s.cwy c).kv.nodes (fun s e => tableWrite (s.nodeAddr c e.1) (s.nodeRecord c e.2) s) s)

/-- What a request holds in KV is released, its page-table chunks apart: pages, nodes, pins, far frames and open blocks. -/
def dropKv (h : Nat) (q : Req) (s : State) : State :=
  let c := q.cwy
  let s := freeFar q s
  let s := foldS q.pages (fun s e =>
    match e.2.1 with
    | 1 => freeFrame c (s.pagePos c e.1) e.2.2 s
    | 3 => dropRef c e.2.2 s
    | _ => s) s
  let s := foldS q.newOf (fun s e => freeFrame c (s.pagePos c e.1) e.2 s) s
  let bound := (q.pages.filter (fun e => e.2.1 == 3)).map (fun e => e.2.2)
  let s := foldS (q.hits.filter (fun n => !bound.contains n)) (fun s n => dropRef c n s) s
  s.modKv c (fun k => { k with
    open_ := k.open_.filter (fun o => o.handle != h)
    far := k.far.filter (fun e => e.1 != h) })

/-- Everything a request holds in KV is released, its page-table chunks among it (R186, Table 8.2 row 3). -/
def releaseKv (h : Nat) (q : Req) (s : State) : State :=
  (dropKv h q s).modKv q.cwy (fun k => { k with
    chunkOf := tdel k.chunkOf h
    chunks := if q.chunked then k.chunks - q.chunkBytes else k.chunks })

/-- A Spandrel's pin is released (R224). -/
def unpin (q : Req) (s : State) : State :=
  match q.spandrel with
  | some n => s.modSp n (fun x => { x with pins := x.pins - 1 })
  | none => s

/-- A pending order of an ended request completes (Table 7.6). -/
def endOrder (kind status reason a : Nat) (o : Option Pending) (s : State) : State :=
  match o with
  | some p => complete p.ring p.tag p.dindex kind status reason 0 a 0 s
  | none => s

/-- A request's admission record leaves the run and the release of its Carriageway: what the step still computes for the
slot is discarded. -/
def dropAdm (c h : Nat) (s : State) : State :=
  s.modCwy c (fun x => { x with
    run := { x.run with adm := x.run.adm.filter (fun a => a.handle != h) }
    key := { x.key with release := x.key.release.map (fun r => { r with adm := r.adm.filter (fun a => a.handle != h) }) } })

/-- A request ends with a status: certificate, completion of its SUBMIT and of its pending orders,
everything it held released. A companion ends without a certificate or a completion, and its target has none then
(R173). -/
def endReq (h status : Nat) (s : State) : State :=
  match s.req h with
  | none => s
  | some q =>
    let comp := q.isComp
    let n := q.gen.length
    let serial := s.certs.serial
    let s := s.when (!comp) (issueCert h q status)
    let cst := if status = 2 then 0 else 3
    let s := endOrder 2 cst 0 n q.cancel s
    let s := endOrder 3 5 0x6B 0 q.pause s
    let s := endOrder 4 5 0x6B 0 q.resume s
    let s := endOrder 4 5 0x6B 0 q.acting s
    let s := s.when (!comp)
      (complete q.par.ring q.par.tag q.par.dindex 1 status 0 (2 * b2n q.par.drawn) serial (leNat q.par.seed))
    let s := unpin q (releaseKv h q s)
    let s := { s with reqs := (tdel s.reqs h).map (fun e => if e.2.companion == some h then (e.1, { e.2 with companion := none }) else e) }
    match q.companion with
    | none => s
    | some g => match s.req g with
      | none => s
      | some gq => let s := dropAdm gq.cwy g (unpin gq (releaseKv g gq s)); { s with reqs := tdel s.reqs g }

/-- Live requests of a Carriageway in ascending sequence number. -/
def State.liveReqs (s : State) (c : Nat) : List (Nat × Req) :=
  let l := s.reqs.filter (fun e => e.2.cwy == c)
  l.foldr (fun e acc => (acc.takeWhile (fun x => x.2.seq < e.2.seq)) ++ e :: (acc.dropWhile (fun x => x.2.seq < e.2.seq))) []

/-- Every live request of a Carriageway ends (R153). -/
def endAll (c status : Nat) (s : State) : State := foldS (s.liveReqs c) (fun s e => endReq e.1 status s) s

end Sys2Proof.Machine
end

