-- ==== Sys2Proof/Machine/FaultOps.lean ====
section
/-! DEFINITION. Integrity errors, fault windows, demands and actions, fences, halt-safe, link loss and the
stop of a Carriageway, as shared operations (sections 10, 11; R18, R154, R335). -/

namespace Sys2Proof.Machine

/-- An integrity error of the current step of Carriageway c (R120, R227). -/
def recordErr (c : Nat) (u : WinUnit) (checks : Nat) (s : State) : State :=
  s.modRun c (fun r => { r with errs := r.errs ++ [{ unit := u, checks := checks }] })

/-- A condition of accuracy-reduced operation that stands during a Carriageway's run stays with the run, whether or not
it still stands at the vote (R71, R286, R319). -/
def noteAcc (s : State) : State :=
  foldS (s.cwys.filter (fun e => e.2.run.inBody && !e.2.run.accRed && s.accReduced e.1)) (fun s e =>
    s.modRun e.1 (fun r => { r with accRed := true })) s

/-! ### Window units -/

/-- Kind number of Table 11.1. -/
def WinUnit.kind : WinUnit → Nat
  | .pier _ _ _ => 0 | .bay _ _ => 1 | .girder _ _ => 2 | .span _ => 3
  | .via _ => 4 | .lane _ _ => 5 | .dir _ => 6 | .device => 7

/-- Die, Bay byte and index byte of a Ledger record (Table 11.2).  DESIGN CHOICE: a Viaduct link and the device stand
under die 6, and a Girder, a Span and the device under Bay byte 0: R8 and Table 11.2 name no other (log 137). -/
def WinUnit.place : WinUnit → Nat × Nat × Nat
  | .pier sp b p => (sp, b, p)
  | .bay sp b => (sp, b, 255)
  | .girder sp g => (sp, 0, g)
  | .span sp => (sp, 0, 255)
  | .via l => (6, l % 256, 255)
  | .lane p l => (if p < 3 then 6 else 7, p, l)
  | .dir p => (if p < 3 then 6 else 7, p, 255)
  | .device => (6, 0, 255)

/-- A 32-byte Ledger record, queued for the Housekeeper (Table 11.2, R258). -/
def ledgerRec (typ kind die bay idx cause detail : Nat) (s : State) : State :=
  let b := leBytes 1 typ ++ leBytes 1 kind ++ leBytes 1 die ++ leBytes 1 bay ++ leBytes 1 idx ++ leBytes 1 cause ++
    zeros 2 ++ leBytes 8 (serviceBeat s) ++ leBytes 4 s.ledger.boot ++ leBytes 4 detail ++ zeros 4
  s.modLedger (fun l => { l with queue := l.queue ++ [b ++ leBytes 4 (crc32c b)] })

def ledgerUnit (typ cause detail : Nat) (u : WinUnit) (s : State) : State :=
  ledgerRec typ u.kind u.place.1 u.place.2.1 u.place.2.2 cause detail s

/-- A unit out of service gains no further events (R256): among them a lane that its direction's spare has replaced
(R264, R334). -/
def State.outOfService (s : State) : WinUnit → Bool
  | .pier sp b p => s.pstate (bayNo sp b) p == 3
  | .bay sp b => s.bayOut (bayNo sp b)
  | .girder sp g => s.spanOut sp || s.groupOut sp g
  | .span sp => s.spanOut sp
  | .via l => s.ras.lostLinks.contains l || (decide (1024 ≤ l ∧ l < 1036) && s.spanOut ((l - 1024) / 2))
  | .dir p => s.ras.dirsDown.contains p
  | .lane p l => s.ras.dirsDown.contains p || ((s.port p).spareUsed && (s.port p).spareFor == l)
  | .device => false

/-- An event of a unit's window, with its Ledger record (R254, R258). -/
def addEvt (u : WinUnit) (cause checks : Nat) (s : State) : State :=
  if s.outOfService u then s
  else
    let t := serviceBeat s
    ledgerUnit 1 cause checks u (s.modRas (fun r => { r with evts := r.evts ++ [{ unit := u, stamp := t, cause := cause }] }))

/-- Whether the gather tree of a Carriageway uses a port here: towards its parent or a child (R335). -/
def State.treeUses (s : State) (c p : Nat) : Bool :=
  let x := s.here c
  let dirs := match s.parentOf c (s.self c) with
    | some m => (s.route c x (s.memberCoord c m)).toList
    | none => []
  let kids := (s.children c).filterMap (fun m => s.route c x (s.memberCoord c m))
  (dirs ++ kids).any (fun d => s.outPort c d == some p)

/-- Whether a Carriageway uses a port: a share on its direction, its tree, or a closure's first hop. -/
def State.usesPort (s : State) (c p : Nat) : Bool :=
  s.enabled c && (s.pelShare c (s.portMap p) != 0 || s.treeUses c p ||
    (List.range 6).any (fun d => s.closed c d && s.outPort c d == some p))

/-- Carriageways whose itinerary holds a cycle mask on a link (R18). -/
def State.maskUsers (s : State) (l : Nat) : List Nat :=
  s.enabledCwys.filter (fun c => (s.masks c).any (fun e => e.1 == l))

/-- A Carriageway uses a window unit: a link, lane or direction as its masks, shares and tree give, the device when it
is enabled (R257). -/
def State.winUsed (s : State) (c : Nat) (u : WinUnit) : Bool :=
  match u with
  | .via l => (s.maskUsers l).contains c
  | .lane p _ => s.usesPort c p
  | .dir p => s.usesPort c p
  | .device => s.enabled c
  | u => s.unitUsed c u

/-- The window configuration in force for a unit (R257): the register, or the word before it for a Carriageway that still
waits for its Keystone.  DEDUCED: of several that wait with different words the first listed decides (log 109). -/
def State.winCfgOf (s : State) (u : WinUnit) : Nat :=
  match s.ras.cfgOf.find? (fun e => s.winUsed e.1 u) with | some e => e.2 | none => s.word 0x80000

/-- Window count of a unit (R254). -/
def State.winCount (s : State) (u : WinUnit) : Nat :=
  let w := 2 ^ fld (s.winCfgOf u) 48 6
  (s.ras.evts.filter (fun e => e.unit == u && decide (serviceBeat s < e.stamp + w))).length

/-- The unit's threshold (RAS_WIN_CFG). -/
def State.threshold (s : State) (u : WinUnit) : Nat := fld (s.winCfgOf u) (4 * u.kind) 4

/-- The first unit lies inside the second, or is it. -/
def WinUnit.within : WinUnit → WinUnit → Bool
  | .pier sp b p, v => v == .pier sp b p || v == .bay sp b || v == .span sp
  | .bay sp b, v => v == .bay sp b || v == .span sp
  | .girder sp g, v => v == .girder sp g || v == .span sp
  | .lane p l, v => v == .lane p l || v == .dir p
  | .via l, v => v == .via l || (decide (1024 ≤ l ∧ l < 1036) && v == .span ((l - 1024) / 2))
  | u, v => u == v

/-- The unit that a unit's action acts on: that of a Span-to-Abutment bundle fences the Span (R18). -/
def WinUnit.fenced : WinUnit → WinUnit
  | .via l => if 1024 ≤ l ∧ l < 1036 then .span ((l - 1024) / 2) else .via l
  | u => u

/-- Recovery level of a unit's action (Table 11.3). -/
def WinUnit.level : WinUnit → Level
  | .pier _ _ _ => .pier
  | .bay _ _ => .bay
  | .girder _ _ => .bay
  | .span _ => .span
  | _ => .link

/-- Scope instance of a demand (Table 11.3). -/
def WinUnit.scope : WinUnit → WinUnit
  | .pier sp b _ => .bay sp b
  | .bay sp _ => .span sp
  | .girder sp _ => .span sp
  | .span _ => .device
  | .lane p _ => .dir p
  | u => u

/-- Severity of a level (Table 11.3). -/
def Level.severity : Level → Nat
  | .span => 1 | .link => 2 | .job => 3 | .bay => 4 | .pier => 5

/-- An action on the unit, or on one that encloses it, is running or queued (R255). -/
def State.actionOn (s : State) (u : WinUnit) : Bool :=
  (s.ras.running ++ s.ras.queue ++ s.ras.demands).any (fun d => u.within d.unit || u.within d.unit.fenced)

/-- Order in which demands that arise together are raised (R255): die, Bay, physical index. -/
def WinUnit.rank (u : WinUnit) : Nat := (u.place.1 * 256 + u.place.2.1) * 256 + u.place.2.2

/-- Units at or above threshold raise demands, in the order of R255. -/
def evaluate (us : List WinUnit) (s : State) : State :=
  let hit := us.eraseDups.filter (fun u => decide (s.threshold u ≤ s.winCount u) && !s.actionOn u && !s.outOfService u)
  let sorted := hit.foldr (fun u acc => (acc.takeWhile (fun v => decide (v.rank < u.rank))) ++ u :: (acc.dropWhile (fun v => decide (v.rank < u.rank)))) []
  foldS sorted (fun s u => s.modRas (fun r => { r with demands := r.demands ++ [{ level := u.level, unit := u }] })) s

/-- Errors of a step run become at most one event per instance (R254). -/
def addEvents (cause : Nat) (errs : List ErrRec) (s : State) : State :=
  foldS ((errs.map (·.unit)).eraseDups) (fun s u =>
    addEvt u cause ((errs.filter (fun e => e.unit == u)).foldl (fun a e => a ||| e.checks) 0) s) s

/-- Errors that a stop leaves without a Keystone still count against their units, where they have no event of this run
yet (R254). -/
def closeErrs (c : Nat) (s : State) : State :=
  let r := (s.cwy c).run
  let errs := (r.voteErrs ++ r.errs).filter (fun e => !r.counted.contains e.unit)
  evaluate ((errs.map (·.unit)).eraseDups ++ r.counted)
    ((addEvents (b2n r.replay) errs s).modRun c (fun r => { r with errs := [], voteErrs := [], counted := [] }))

/-! ### Temperatures and the window length (R271) -/

/-- Node of a Bay (Table 13.2). -/
def bayNode (bn : Nat) : Nat := 48 * (bn / 256) + bn % 256 / 8

/-- The temperature of a Bay meets the condition of an inspection beat: no lower than hot_band_c below its node's highest in
the preceding 2^win_exp service beats (R271), as in force for the Bay (R257). -/
def State.hotNow (s : State) (bn : Nat) : Bool :=
  let old := (tgetD s.thm.past (bayNode bn) []).filter (fun e =>
    decide (serviceBeat s < e.1 + 2 ^ fld (s.winCfgOf (.bay (bn / 256) (bn % 256))) 48 6))
  decide ((old.map (·.2)).foldl max (s.bayTemp bn) ≤ s.bayTemp bn + 1000 * s.inspf 32 8)

/-- The Bays of a node: nodes 32 to 47 of a die hold none. -/
def nodeBays (k : Nat) : List Nat := if k % 48 < 32 then (List.range 8).map (fun i => 256 * (k / 48) + 8 * (k % 48) + i) else []

/-- The Bays of these nodes that met the condition up to now are known to have met it. -/
def noteHot (ks : List Nat) (before s : State) : State :=
  let now := serviceBeat s
  foldS ((ks.flatMap nodeBays).filter before.hotNow) (fun s bn => { s with thm := { s.thm with hotAt := tset s.thm.hotAt bn now } }) s

/-- Node temperatures change: those before stay known as far as they may be the highest of a look-back. -/
def noteTemps (before s : State) : State :=
  let now := serviceBeat s
  let ks := (List.range 288).filter (fun k => before.nodeTemp (k / 48) (k % 48) != s.nodeTemp (k / 48) (k % 48))
  noteHot ks before (foldS ks (fun s k =>
    let old := before.nodeTemp (k / 48) (k % 48)
    let l := ((tgetD s.thm.past k []).filter (fun e => decide (old < e.2) && decide (now < e.1 + 2 ^ 34)))
    { s with thm := { s.thm with past := tset s.thm.past k ((now, old) :: l) } }) s)

/-- A written RAS_WIN_CFG waits for a Carriageway no longer (R257). -/
def dropCfg (c : Nat) (s : State) : State :=
  noteHot (s.thm.past.map (·.1)) s (s.modRas (fun x => { x with cfgOf := x.cfgOf.filter (fun e => e.1 != c) }))

/-- Units with events for which another configuration is in force once the wait for a Carriageway ends. -/
def State.cfgNew (s : State) (c : Nat) : List WinUnit :=
  (s.ras.evts.map (·.unit)).filter (fun u => (dropCfg c s).winCfgOf u != s.winCfgOf u)

/-- The wait for a Carriageway ends: its units are evaluated under the new configuration (R257). -/
def cfgTakes (c : Nat) (s : State) : State :=
  if s.ras.cfgOf.any (fun e => e.1 == c) then evaluate (s.cfgNew c) (dropCfg c s) else s

/-- An event outside a step run, evaluated at once (R255). -/
def eventNow (u : WinUnit) (cause checks : Nat) (s : State) : State := evaluate [u] (addEvt u cause checks s)

/-- A step run is open: its body, and the Keystone that closes it (R104). -/
def Cwy.runOpen (x : Cwy) : Bool := x.run.inBody || (x.key.own.isSome && x.key.kind == 0)

/-- The run has an event of a unit already, or an error that becomes one (R254). -/
def Run.hasEvent (r : Run) (u : WinUnit) : Bool := r.counted.contains u || (r.errs ++ r.voteErrs).any (fun e => e.unit == u)

/-- An event of a port's lane or direction that is no job frame's error: at most one in each step run that the port
serves (R254, R333), evaluated at that run's Keystone, and at once outside step runs (R255). -/
def portEvent (p : Nat) (u : WinUnit) (s : State) : State :=
  let cs := (s.cwys.filter (fun e => e.2.runOpen && s.usesPort e.1 p)).map (·.1)
  if cs.isEmpty then eventNow u 0 0 s
  else if cs.any (fun c => (s.cwy c).run.hasEvent u) then s
  else addEvt u (b2n (cs.any (fun c => (s.cwy c).run.replay))) 0
    (foldS cs (fun s c => s.modRun c (fun r => { r with counted := u :: r.counted })) s)

/-- The lane of a port's window that a logical lane runs on: lane 8 once the spare carries it (R334; log 216). -/
def State.laneUnit (s : State) (p l : Nat) : Nat := if (s.port p).spareUsed && (s.port p).spareFor == l then 8 else l

/-! ### Carriageway stops -/

/-- The Carriageway-stopped event (R154). -/
def stoppedEvent (c cause : Nat) (s : State) : State := post 0x10 0xFF (leBytes 1 c ++ leBytes 1 cause) s

/-- Slots of a Carriageway given back on every port (R326). -/
def freeSlots (c : Nat) (s : State) : State :=
  foldS (List.range 6) (fun s p => s.modPort p (fun x =>
    { x with slots := x.slots.filter (fun e => e.2 != c), xfers := x.xfers.filter (fun e => e.cwy != c)
             fwd := x.fwd.filter (fun e => e.1 != c) })) s

/-- A Spandrel slot left by its tenant: FREE, or RETIRING while requests pin it (R223, R225).  The lead keeps the pin
counts; another member frees the slot when a release reports its count at 0 (R224), at once in DISABLED, where no
request is live, and at once where the slot was never CURRENT, so that no request has pinned it. -/
def retireSlot (n : Nat) (s : State) : State :=
  let s := foldS (s.sp n).retireOrd (fun s o => complete o.1 o.2.2 o.2.1 10 0 0 0 0 0 s) s
  let c := (s.sp n).cwy
  let knows := s.isLead c || s.inState c [.disabled, .checking] || (s.sp n).state == 1 || (s.sp n).state == 2
  s.modSp n (fun x => if x.pins = 0 && knows then {} else { x with state := 4, retiring := false, retireOrd := [] })

/-- A LOAD_SPANDREL ends SUPERSEDED with its slot and its bundle's version (R379, Table 15.7). -/
def supersedeSp (n : Nat) (s : State) : State :=
  match (s.sp n).order with
  | some o => complete o.1 o.2.2 o.2.1 9 4 0 0 n (s.sp n).version s
  | none => s

/-- An unbinding completes: the tenant's live requests end STOPPED, keys destroyed, slots retired. -/
def finishUnbind (t : Nat) (s : State) : State :=
  let hs := (s.reqs.filter (fun e => e.2.tenant == t && !e.2.isComp)).map (·.1)
  let s := foldS hs (fun s h => endReq h 8 s) s
  let s := foldS ((List.range 256).filter (fun n => (s.sp n).state != 0 && (s.sp n).tenant == t)) (fun s n =>
    let s := supersedeSp n s
    retireSlot n (s.modW (s.sp n).cwy (fun w => { w with spLoads := w.spLoads.filter (fun l => l.slot != n) }))) s
  s.modTenant t (fun x => { x with bound := false, unbinding := false, modelKey := none, spKey := none, keyState := 0, spEn := false })

/-- Unbindings that wait complete when the Carriageway reaches DISABLED or STOPPED (R159). -/
def finishUnbinds (c : Nat) (s : State) : State :=
  foldS ((List.range 1024).filter (fun t => (s.tenant t).unbinding && s.tenCwy t == c)) (fun s t => finishUnbind t s) s

/-- A Carriageway enters DISABLED: live requests end STOPPED, keys destroyed, tree and staging discarded,
wide state cleared (R153, R198, R202, R341, R47), and a new RAS_WIN_CFG waits for it no longer (R257).  Its running Bays stay to be ramped out (R128). -/
def toDisabled (c : Nat) (s : State) : State :=
  let s := finishUnbinds c (endAll c 8 (cfgTakes c (closeErrs c s)))
  let s := freeSlots c s
  let share := s.rampShare c
  s.modCwy c (fun x => { x with
    life := { x.life with state := .disabled, enable := false, stopPend := 0, farKey := [], farCtr := 0, keyDigest := [], started := false }
    run := {}, key := {}, kv := {}, wide := [], jk := {}, arrivals := [], flights := [], ramped := false, share := share })

/-- A Carriageway enters STOPPED for a device cause, or DISABLED from STOPPING (R154).  DEDUCED: no arrival of the run that
ended can serve a WAIT of a later one, so its records go; the run parity counts on (R340; log 177). -/
def stopNow (c cause : Nat) (s : State) : State :=
  let st := (s.cwy c).life.state
  let s := (closeErrs c s).modLife c (fun l => { l with stopCause := cause, stopPend := 0 })
  let s := if st == .stopping then toDisabled c s
    else finishUnbinds c (s.modCwy c (fun x => { x with
      life := { x.life with state := .stopped }, arrivals := []
      run := { x.run with inBody := false, wait := none, leaving := false, errs := [], voteErrs := [] }
      key := { votePj := x.key.votePj, carryPj := x.key.carryPj }
      kv := { x.kv with staged := [] }, ramped := false }))
  stoppedEvent c cause s

/-- A Trestle response: dropped when its ball is isolated (R401, R403, Table 16.5). -/
def trestleRespond (f : THead) (status reason : Nat) (data : Bytes) (s : State) : State :=
  match s.chain.addr with
  | none => s
  | some a =>
    if f.dst != a || (if f.ball = 0 then s.chain.isoDin else s.chain.isoDout) then s
    else emit (.trestle f.ball (trestleBits (trestleFrame f.src a 0x03 f.seq (leBytes 1 status ++ leBytes 1 reason ++ zeros 2 ++ data)))) s

/-- The running check is abandoned (R152); a fleet order that started it is answered OK with reason 0x00,
which Table 7.8 says is no refusal. -/
def dropCheck (s : State) : State :=
  match s.chain.check with
  | none => s
  | some k =>
    let s := s.modChain (fun x => { x with check := none })
    match k.reply with
    | some f => trestleRespond f 0 0 [] s
    | none => s

/-- The device asks that a Carriageway stop for cause 3 to 5 (R154): at its next Keystone when it is
RUNNING or STOPPING, at once when STARTING, its check abandoned when CHECKING. -/
def askStop (c cause : Nat) (s : State) : State :=
  match (s.cwy c).life.state with
  | .running | .stopping => s.modLife c (fun l => { l with stopPend := max l.stopPend cause })
  | .starting => flush s (stopNow c cause s)
  | .checking =>
    let s := flush s (toDisabled c ((dropCheck s).modLife c (fun l => { l with reason := 0, stopCause := cause })))
    stoppedEvent c cause s
  | _ => s

/-- Halt-safe is entered (R268): every Carriageway stops at its next Keystone with cause 5. -/
def enterHalt (s : State) : State :=
  let s := s.modRas (fun r => { r with haltSafe := true })
  foldS s.enabledCwys (fun s c => askStop c 5 s) s

/-- The capacity-loss event: Carriageway, die, Bay or 0xFF (R262, R263). -/
def capacityLoss (c die bay : Nat) (s : State) : State := post 0x22 die (leBytes 1 c ++ leBytes 1 bay) s

/-! ### Links -/

/-- The unit is a lane of the port. -/
def WinUnit.laneOf (p : Nat) : WinUnit → Bool
  | .lane q _ => q == p
  | _ => false

/-- A lane action that its port cuts off ends with the lane still in service, whose events are evaluated again (R255). -/
def endLanes (p : Nat) (s : State) : State :=
  let us := ((s.ras.running.map (·.unit)).filter (WinUnit.laneOf p))
  evaluate us (s.modRas (fun r => { r with running := r.running.filter (fun d => !d.unit.laneOf p) }))

/-- A port leaves UP for another state: link-down event, ALERT cause 3, Carriageways stop (R335), and a lane's move on
it ends unfinished. -/
def leaveUp (p st : Nat) (s : State) : State :=
  let up := (s.port p).state == 2
  let cs := (List.range 64).filter (fun c => s.usesPort c p)
  let s := endLanes p (s.modPort p (fun x => { x with state := st, moving := none, ctl := [] }))
  if up then
    let s := s.modChain (fun x => { x with alertLatch := x.alertLatch ||| 8 })
    let s := post 0x50 (if p < 3 then 6 else 7) (leBytes 1 p ++ leBytes 1 st) s
    foldS cs (fun s c => askStop c 4 s) s
  else s

/-- A lost Span-to-Span bundle (R18).  DESIGN CHOICE: Table 15.9's die and Bay bytes of its capacity-loss events are both
0xFF, since a bundle is of no one die and of no Bay (log 172). -/
def loseBundle (l : Nat) (s : State) : State :=
  let s := s.modRas (fun r => { r with lostLinks := if r.lostLinks.contains l then r.lostLinks else l :: r.lostLinks })
  foldS (s.maskUsers l) (fun s c => capacityLoss c 0xFF 0xFF (askStop c 4 s)) s

/-! ### Calibration passes (R283, R284, R288) -/

/-- A calibration pass of a Bay is triggered (R283, R284): it starts, or stands pending. -/
def triggerPass (bn : Nat) (s : State) : State :=
  if s.calf 0 1 = 0 || s.bayOut bn || s.halted then s
  else if (s.bay bn).calRunning then s.modBay bn (fun y => { y with calPending := true })
  else
    let v := !s.vref.faulted
    let ps := (s.bay bn).passPiers
    let s := foldS ps (fun s p => s.modPier bn p (fun x => { x with calLeft := some 66, calVref := v })) s
    if ps.isEmpty then s else s.modBay bn (fun y => { y with calRunning := true })

/-- Bays that no longer owe a pass against VREF_CAL: one that has completed it, and those out of service; internal
clears with the last (R288). -/
def todoDone (gone : Nat → Bool) (s : State) : State :=
  let todo := s.vref.todo.filter (fun b => !gone b && !s.bayOut b)
  { s with vref := { s.vref with todo := todo, internal := s.vref.internal && (s.vref.faulted || !todo.isEmpty) } }

/-- The Bay's pass ends when none of its Piers has beats left, also where the last one was dropped; a pending pass starts
(R284), and the Bay owes no more the pass of R288 where this one ran against VREF_CAL. -/
def endBayPass (bn : Nat) (vref : Bool) (s : State) : State :=
  if !(s.bay bn).calRunning || (s.bay bn).piers.any (fun p => p.2.calLeft.isSome) then s
  else
    let pend := (s.bay bn).calPending
    let s := s.modBay bn (fun y => { y with calRunning := false, calPending := false, calTemp := s.bayTemp bn, calFreq := s.pw.curStep
                                            calBeat := some (serviceBeat s), calDue := false
                                            calVref := if vref then some (serviceBeat s, s.bayTemp bn) else y.calVref })
    let s := todoDone (fun b => b == bn && vref) s
    if pend then triggerPass bn s else s

/-- The pass of a Pier is abandoned (R284). -/
def dropPass (bn p : Nat) (s : State) : State :=
  let x := s.pier bn p
  if x.calLeft.isNone then s else endBayPass bn x.calVref (s.modPier bn p (fun x => { x with calLeft := none }))

/-- The Piers of Bays that leave service drop their passes and staged trims (R282). -/
def dropBays (inside : Nat → Bool) (s : State) : State :=
  let bs := (s.bays.filter (fun e => inside e.1)).map (·.1)
  let s := foldS bs (fun s b => s.modBay b (fun y => { y with
    calRunning := false, calPending := false, piers := y.piers.map (fun e : Nat × Pier => (e.1, { e.2 with staged := none, calLeft := none })) })) s
  todoDone (fun _ => false) s

/-- Bays that are current now are known as such: the first Keystone at which they have ceased to be posts the event (R286). -/
def noteCurrent (s : State) : State :=
  foldS ((s.bays.filter (fun e => !e.2.wasCurrent && s.calCurrent e.1)).map (·.1)) (fun s b => s.modBay b (fun y => { y with wasCurrent := true })) s

/-! ### Fences -/

/-- Weight mode of an image: codes 3 to 5 of Table 2.1 are 2-bit. -/
def imageMode (m : Mem) : Nat := if 3 ≤ (memRead m 137216).toNat then 1 else 0

/-- The mode of the image at an HBM address. -/
def State.modeAt (s : State) (a : Nat) : Nat := if 3 ≤ (memRead s.hbm (a + 137216)).toNat then 1 else 0

/-- A Pier of the Bay other than one is programmed (R52). -/
def Bay.programmed (y : Bay) (p : Nat) : Bool := y.piers.any (fun e => e.1 != p && (e.2.state == 1 || e.2.state == 2))

/-- Load buffers in use on the Abutment that serves a Bay (R218). -/
def State.loadBufs (s : State) (bn : Nat) : Nat :=
  ((s.bays.filter (fun e => e.1 / 768 == bn / 768)).filter (fun e => e.2.bulk.any (fun b => b.2.on))).length

/-- The first bulk write of a Bay's queue begins when one of its Abutment's 32 load buffers is free: its Pier is
PROGRAMMING, and gives the Bay its mode where it is the first Pier programmed (R52, R74, R218). -/
def wakeBulk (bn : Nat) (s : State) : State :=
  match (s.bay bn).bulk with
  | [] => s
  | (p, w) :: r =>
    if w.on || decide (32 ≤ s.loadBufs bn) then s else
    let s := s.modBay bn (fun y => { y with bulk := (p, { w with on := true }) :: r })
    let s := if (s.bay bn).programmed p then s else s.modBay bn (fun y => { y with mode := some (s.modeAt w.src) })
    dropPass bn p (s.modPier bn p (fun x => { x with state := if x.state == 3 then 3 else 1, refreshRow := none, refreshBuf := none }))

/-- A bulk write joins those of its Bay, which run one at a time (R74, R77, R218). -/
def startBulk (bn p : Nat) (w : Bulk) (s : State) : State :=
  let w := { w with was := match tget (s.bay bn).bulk p with | some o => o.was | none => (s.pier bn p).state }
  wakeBulk bn (s.modBay bn (fun x => { x with bulk := x.bulk.filter (fun e => e.1 != p) ++ [(p, w)] }))

/-- A bulk write has ended, and those that its Bay or its load buffer held up begin.  DESIGN CHOICE: Bays that wait for
a buffer get one in ascending number (R218; log 175). -/
def dropBulk (bn p : Nat) (s : State) : State :=
  let s := s.modBay bn (fun x => { x with bulk := x.bulk.filter (fun e => e.1 != p) })
  foldS ((s.bays.filter (fun e => e.1 / 768 == bn / 768 && !e.2.bulk.isEmpty)).map (·.1)) (fun s b => wakeBulk b s) s

/-- What leaves service when a unit's fence takes effect (R261, R263), with its Ledger record. -/
def markFenced (u : WinUnit) (spare : Nat) (s : State) : State :=
  let s := ledgerUnit 2 0 spare u s
  match u with
  | .pier sp b p => dropPass (bayNo sp b) p (s.modPier (bayNo sp b) p (fun x => { x with
      state := 3, staged := none, refreshRow := none, refreshBuf := none }))
  | .bay sp b => dropBays (· == bayNo sp b) (s.modBay (bayNo sp b) (fun x => { x with fenced := true }))
  | .girder sp g => dropBays (fun b => b / 256 == sp && b % 256 / 4 == g) (s.modGirder (girNo sp g) (fun x => { x with fenced := true, run := none }))
  | .span sp => dropBays (fun b => b / 256 == sp)
      ((s.modRas (fun r => { r with spanFenced := r.spanFenced ||| 2 ^ sp })).modEn (fun e => { e with marginDue := true }))
  | _ => s

/-- Logical Pier mapped to a physical one, if any. -/
def State.logicalOf (s : State) (bn p : Nat) : Option Nat := (List.range 16).find? (fun l => s.phys bn l == p)

/-- The remap entry of a logical Pier moves to a spare (R77). -/
def moveMap (bn l p : Nat) (s : State) : State := s.modBay bn (fun x => { x with map := x.map.set l p })

/-- Carriageways stop for a unit out of service, each with its capacity-loss event. -/
def stopUsers (u : WinUnit) (s : State) : State :=
  let bay := match u with | .pier _ b _ => b | .bay _ b => b | _ => 0xFF
  foldS ((List.range 64).filter (fun c => s.unitUsed c u)) (fun s c =>
    capacityLoss c u.place.1 bay (askStop c 4 s)) s

/-- The recovery actions of units inside one that is out of service end (R267). -/
def endInside (u : WinUnit) (s : State) : State :=
  s.modRas (fun r => { r with
    running := r.running.filter (fun d => !d.unit.within u)
    queue := r.queue.filter (fun d => !d.unit.within u)
    pend := r.pend.filter (fun f => !f.unit.within u) })

/-- A fence takes effect (R263): retraction notices, service lost, Carriageways stopped where no spare takes over.
Of a Pier, `spare` is 255 where it is not mapped and 31 where its Bay has none (R262). -/
def fenceNow (u : WinUnit) (spare : Option Nat) (s : State) : State :=
  let spare := spare.filter (· != 31)
  let s := noteAcc s
  let s := foldS ((List.range 64).filter (fun c => s.unitUsed c u)) (fun s c => retract u c s) s
  let s := s.when (match u with | .pier _ _ _ => spare.isNone | _ => true) (stopUsers u)
  markFenced u (spare.getD 255) (s.modRas (fun r => { r with
    running := r.running.filter (fun d => !d.unit.within u), queue := r.queue.filter (fun d => !d.unit.within u)
    demands := r.demands.filter (fun d => !d.unit.within u), pend := r.pend.filter (fun f => !f.unit.within u) }))

/-- Lowest local layer that a pending REPLACE_LAYER has not replaced. -/
def Weights.nextLayer (w : Weights) : Option Nat := w.replace.bind (fun r => if r.done < r.count then some (r.first + r.done) else none)

/-- Bulk writes of a replacement without a hold that still run. -/
def State.replaceBusy (s : State) (c : Nat) : Bool := s.bays.any (fun b => b.2.bulk.any (fun e => e.2.cwy == c && e.2.why == 2))

/-- The Carriageway and the new shadow where the layer that a replacement is writing covers a logical Pier, whose descriptor has
not flipped yet (R73, R217). -/
def State.newShadow (s : State) (bn l : Nat) : Option (Nat × Nat) :=
  s.cwys.findSome? (fun e =>
    if e.2.w.wstate == 4 || s.replaceBusy e.1 then
      ((e.2.w.nextLayer.bind (tget e.2.w.staged)).bind (fun y => y.piers.find? (fun p => bayNo p.1.1 p.1.2.1 == bn && p.1.2.2 == l))).map
        (fun p => (e.1, p.2))
    else none)

/-- The spare's bulk write for a Pier that is to be fenced, when the spare can take over (R260): its calibration pass is
abandoned at once (R284), and it is written from the shadow in force once it serves (R77). -/
def spareFor (sp b p : Nat) (s : State) : Option Nat × State :=
  let bn := bayNo sp b
  let x := s.sparePhys bn
  match s.logicalOf bn p with
  | none => (none, s)
  | some l =>
    if x == 31 || (s.pier bn x).state != 0 then (none, s)
    else
      let s := dropPass bn x s
      match s.newShadow bn l, s.shadow bn l with
      | some (c, a), _ => (some x, startBulk bn x { src := a, cwy := c, why := 1, logical := l } s)
      | none, some (c, _, a) => (some x, startBulk bn x { src := a, cwy := c, why := 1, logical := l } s)
      | none, none => (some x, s)

/-- The bundle whose loss a Viaduct link's crossing is (R18, R264). -/
def loseLink (l : Nat) (s : State) : State :=
  if 1036 ≤ l && l ≤ 1042 then loseBundle l s
  else if l == 1043 then enterHalt s
  else s

/-- A direction goes down (R264): its port, where it is UP, enters DOWN. -/
def dirDown (p : Nat) (s : State) : State :=
  let s := s.modRas (fun r => { r with dirsDown := if r.dirsDown.contains p then r.dirsDown else p :: r.dirsDown })
  s.when ((s.port p).state == 2) (leaveUp p 5)

/-- A lane is to move onto its direction's spare (R264, R334): the receiver sends a lane-change frame. -/
def laneAction (p l : Nat) (s : State) : State :=
  ledgerUnit 4 0 255 (.lane p l) (s.modPort p (fun x => { x with moving := some l, ctl := x.ctl ++ [leBytes 1 1 ++ leBytes 1 l] }))

/-- An action runs until the Keystone at which its last change applies, or until its unit leaves service (R266). -/
def runAction (d : Demand) (s : State) : State := s.modRas (fun r => { r with running := r.running ++ [d] })

/-- A fence is decided and waits for its Keystone (R260, R263). -/
def addPend (f : PendFence) (s : State) : State := s.modRas (fun r => { r with pend := r.pend ++ [f] })

/-- A Pier that no enabled Carriageway uses is fenced, and its remap changed, at once (R263). -/
def fencePier (sp b p : Nat) (spare : Option Nat) (s : State) : State :=
  let bn := bayNo sp b
  match spare, s.logicalOf bn p with
  | some x, some l => ledgerUnit 3 0 x (.pier sp b p) (fenceNow (.pier sp b p) (some x) (moveMap bn l x s))
  | _, _ => fenceNow (.pier sp b p) (some 255) s

/-- The action of a Pier's demand: the spare's bulk write starts at once (R260); the fence waits for a Keystone where
an enabled Carriageway uses the unit (R263). -/
def pierAction (d : Demand) (sp b p : Nat) (s : State) : State :=
  let bn := bayNo sp b
  let r := spareFor sp b p s
  let written := match s.logicalOf bn p with | some l => (s.shadow bn l).isNone && (s.newShadow bn l).isNone | none => true
  if (List.range 64).any (fun c => s.unitUsed c d.unit) then
    runAction d (addPend { unit := d.unit, spare := if (s.logicalOf bn p).isSome then r.1 else some 255, spareDone := written } r.2)
  else fencePier sp b p r.1 r.2

/-- The action of a fence of a Bay, a Girder or a Span (R263). -/
def unitAction (d : Demand) (u : WinUnit) (s : State) : State :=
  if (List.range 64).any (fun c => s.unitUsed c u) then runAction d (addPend { unit := u } s) else fenceNow u none s

/-- The action of a demand starts (R260, R263, R264).  The loss of a Span-to-Abutment bundle fences its Span (R18). -/
def startAction (d : Demand) (s : State) : State :=
  let s := endInside d.unit s
  match d.unit with
  | .pier sp b p => pierAction d sp b p s
  | .via l => if 1024 ≤ l && l < 1036 then unitAction d (.span ((l - 1024) / 2)) s else loseLink l s
  | .lane p l =>
    if (s.port p).moving == some l then runAction d s
    else if (s.port p).spareUsed || (s.port p).moving.isSome then dirDown p s else runAction d (laneAction p l s)
  | .dir p => dirDown p s
  | .device => enterHalt s
  | u => unitAction d u s

/-- The enclosing demand of an escalation (Table 11.3). -/
def escalate (u : WinUnit) : WinUnit :=
  match u with
  | .pier sp b _ => .bay sp b
  | .bay sp _ => .span sp
  | .girder sp _ => .span sp
  | .lane p _ => .dir p
  | _ => .device

/-- Insertion into the recovery queue: severity, then arrival (R267). -/
def queueInsert (d : Demand) : List Demand → List Demand
  | [] => [d]
  | x :: r => if d.level.severity < x.level.severity then d :: x :: r else x :: queueInsert d r

/-- The link level's last resort: a direction goes down, and a bundle is lost under R18. -/
def WinUnit.lastLink : WinUnit → Bool
  | .dir _ => true
  | .via _ => true
  | _ => false

/-- A demand starts, escalates or queues (R266, R267).  That of a unit which has left service since is met already. -/
def takeDemand (fuel : Nat) (u : WinUnit) (s : State) : State :=
  match fuel with
  | 0 => s
  | k + 1 =>
    if u == .device then enterHalt s
    else if s.outOfService u then s
    else if u.lastLink && s.ras.running.any (fun d => d.level == .link && d.unit.scope == u.scope) then
      startAction { level := .link, unit := u } (s.modRas (fun r => { r with escal := satAdd 8 r.escal 1 }))
    else
      match s.ras.running.find? (fun d => d.level == u.level) with
      | some d =>
        if d.unit.scope == u.scope then
          let s := s.modRas (fun r => { r with escal := satAdd 8 r.escal 1 })
          let e := escalate u
          if e.lastLink then startAction { level := .link, unit := e } s else takeDemand k e s
        else if 32 ≤ s.ras.queue.length then enterHalt s
        else s.modRas (fun r => { r with queue := queueInsert { level := u.level, unit := u } r.queue })
      | none => startAction { level := u.level, unit := u } s

/-- Queued entries whose level is free start, first of each level (R267). -/
def startQueued (fuel : Nat) (s : State) : State :=
  match fuel with
  | 0 => s
  | k + 1 =>
    match s.ras.queue.find? (fun d => !s.ras.running.any (fun r => r.level == d.level)) with
    | none => s
    | some d =>
      let s := s.modRas (fun r => { r with queue := r.queue.erase d })
      startQueued k (if s.outOfService d.unit then s else startAction d s)

/-- A fence takes effect, and the levels that its unit's actions leave free take their queues up (R263, R267). -/
def fenceFree (u : WinUnit) (spare : Option Nat) (s : State) : State := startQueued 40 (fenceNow u spare s)

/-- A port leaves UP, and the link level takes its queue up where a lane's move ends with it (R267). -/
def leavePort (p st : Nat) (s : State) : State := startQueued 40 (leaveUp p st s)

/-- A pending fence whose unit no enabled Carriageway uses any longer takes effect (R263). -/
def pendSweep (s : State) : State :=
  foldS (s.ras.pend.filter (fun f => !(List.range 64).any (fun c => s.unitUsed c f.unit))) (fun s f =>
    match f.unit with
    | .pier sp b p => startQueued 40 (fencePier sp b p (f.spare.filter (· != 255)) s)
    | u => fenceFree u none s) s

end Sys2Proof.Machine
end

