-- ==== Sys2Proof/Machine/Flights.lean ====
section
/-! DEFINITION. The issue of itinerary ops from the op buffers, and the flits of transfers under way: when each
leaves, when it is delivered, and what a unit reads at a core cycle (R13, R14, R86, R108, R114, R117, R139 to R142,
Tables 6.11 and 6.12). -/

namespace Sys2Proof.Machine

/-! ### Op buffers (R139 to R142) -/

/-- The op word at the head of a die's stream, when its block is in the op buffer. -/
def State.headWord (s : State) (c : Nat) (die : Die) : Option Nat :=
  let r := (s.cwy c).run
  let p := tgetD r.pos die 0
  (r.buf.find? (fun e => e.1 == die && e.2.1 == p / 256)).bind (fun e => e.2.2[p % 256]?)

/-- The common fields of an op word are those of an op of a class (Table 6.8). -/
def opNames (op : Op) (cls w : Nat) : Bool :=
  opClass w == cls && opCycle w == op.cyc && opPred w == op.pred && opLayer w == op.layer

/-- The op stands at the head of its die's stream and its die issues: the Carriageway is in a body, no stall holds the
op (a WAIT joins a stall of its own cycle, R146), and its cycle is not past (R113, R116, R140, R141).  DESIGN CHOICE: of the
ops of a stalling WAIT's own cycle, those that stand before the WAIT in the stream issue before the stall, those behind it
after (R113, R141; log 185); one that stands before its own die's WAIT issues after the stall when another die's WAIT command
has come first (log 204). -/
def State.atHead (s : State) (op : Op) (is : Nat → Bool) : Bool :=
  let r := (s.cwy op.cwy).run
  match s.headWord op.cwy op.die with
  | none => false
  | some w =>
    is w && s.dieOn op.die && r.inBody && !r.leaving && !r.deadDies.contains op.die && !r.ended.contains op.die && decide (r.now ≤ op.cyc) &&
    (match r.wait with | some (p, _) => decide (op.cyc < p) || opClass w == 13 && op.cyc == p | none => true)

/-- The predicate of an op is true under the grants of the step (R142). -/
def State.predTrue (s : State) (op : Op) : Bool :=
  let granted := (s.cwy op.cwy).run.grants.contains op.layer
  op.pred == 0 || op.pred == 1 && !granted || op.pred == 2 && granted

/-- The stream of a die passes its head op. -/
def passOp (op : Op) (s : State) : State :=
  s.modRun op.cwy (fun r => { r with pos := tmod r.pos op.die 0 (· + 1), now := op.cyc })

/-- A die issues the op at the head of its stream; one whose predicate is false is passed over (R141, R142). -/
def issue (op : Op) (is : Nat → Bool) (f : State → State) (s : State) : State :=
  if s.atHead op is then (if s.predTrue op then f (passOp op s) else passOp op s) else s

/-- The op issues. -/
def State.issues (s : State) (op : Op) (is : Nat → Bool) : Bool := s.atHead op is && s.predTrue op

/-- The latest cycle in which an issued op uses anything (R116, Table 6.11). -/
def useUntil (c t : Nat) (s : State) : State := s.modRun c (fun r => { r with lastUse := max r.lastUse t })

/-! ### Routes (Table 6.12) -/

/-- Links between two Spans of the two rows of three. -/
def spanHops (a b : Nat) : Nat := (max (a % 3) (b % 3) - min (a % 3) (b % 3)) + (if a / 3 = b / 3 then 0 else 1)

/-- Latency between the Deck slices or Bays of two groups. -/
def groupLat (sa ga sb gb : Nat) : Nat :=
  if sa = sb then (if ga = gb then 4 else if ga / 8 = gb / 8 then 8 else 16) else 36 + 16 * (spanHops sa sb - 1)

/-- Where a route starts or ends: the group of a Span, or an Abutment's SRAM. -/
inductive Stop where
  | group (span grp : Nat)
  | abut (die : Die)
  deriving DecidableEq, Repr

/-- Latency of a route from first flit sent to first flit received. -/
def routeLat : Stop → Stop → Nat
  | .group a g, .group b h => groupLat a g b h
  | .abut a, .abut b => if a = b then 8 else 36
  | _, _ => 40

/-! ### Bytes at a place -/

/-- The place of a local address: a Deck slice on a Span, SRAM on an Abutment (section 6, The op word). -/
def localLoc (die : Die) (laddr : Nat) : Loc := if die < 6 then .deck (deckAddr die laddr) else .sram (sramAddr die laddr)

/-- The place n units further on. -/
def Loc.plus (l : Loc) (n : Nat) : Loc :=
  match l with
  | .deck a => .deck (a + 64 * n)
  | .sram a => .sram (a + 64 * n)
  | .hbm a => .hbm (a + 64 * n)
  | .port b f => .port b (f + n)
  | .stage a t l h f => .stage a t l h (f + n)
  | .link d m r t f => .link d m r t (f + n)
  | .sink => .sink

/-- The 64 bytes at a place; ports, staging entries and engines hold nothing to read. -/
def State.bytesAt (s : State) : Loc → Bytes
  | .deck a => memBytes s.deck a 64
  | .sram a => memBytes s.sram a 64
  | .hbm a => memBytes s.hbm a 64
  | _ => zeros 64

/-- The Pelind port on which the bytes of an Abutment SRAM unit came damaged, if they did. -/
def State.taintAt (s : State) : Loc → Option Nat
  | .sram a => tget s.taint (a / 64)
  | _ => none

/-- 64 bytes written to Abutment SRAM; they come damaged from a port, or sound. -/
def sramPut (a : Nat) (bs : Bytes) (bad : Option Nat) (s : State) : State :=
  { s with sram := memPut s.sram a bs
           taint := match bad with | some p => tset s.taint (a / 64) p | none => tdel s.taint (a / 64) }

/-- 64 bytes written to HBM by an op: the container of an enabled Carriageway is read-only to it (R137). -/
def hbmPut (a : Nat) (bs : Bytes) (s : State) : State :=
  if (s.containerHit a bs.length).isEmpty then hbmStore a bs s else s

/-- A flit of a staged entry (R191): 64 of the 256 bytes of the entry of a slot, token, layer and head. -/
def stagePut (c aslot tok layer head f : Nat) (bs : Bytes) (s : State) : State :=
  s.modKv c (fun k =>
    let same := fun (x : Staged) => x.aslot == aslot && x.tok == tok && x.layer == layer && x.head == head
    let old := match k.staged.find? same with | some x => x.data | none => zeros 256
    { k with staged := k.staged.filter (fun x => !same x) ++
        [{ aslot := aslot, tok := tok, layer := layer, head := head, data := putBytes old (64 * f) bs }] })

/-- A flit of a PL_SEND reaches the engine: the transfer that awaits it takes its bytes (R328). -/
def linkPut (c dir dmember rxbuf tag f : Nat) (bs : Bytes) (s : State) : State :=
  foldS (List.range 6) (fun s p => if (s.port p).xfers.isEmpty then s else s.modPort p (fun x => { x with xfers := x.xfers.map (fun y =>
    if y.cwy == c && y.dir == dir && y.dmember == dmember && y.rxbuf == rxbuf && y.tag == tag && y.data.length == 64 * f
    then { y with data := y.data ++ bs } else y) })) s

/-! ### Flits under way (R108, R114) -/

/-- Order of two events: by cycle, and in one cycle what is delivered stands before what leaves. -/
def Flight.rank (x : Flight) : Nat := 2 * x.cyc + b2n x.src.isSome

/-- A flit joins those under way, in the order of their events. -/
def Flight.insert (x : Flight) : List Flight → List Flight
  | [] => [x]
  | y :: r => if x.rank < y.rank then x :: y :: r else y :: x.insert r

/-- Flits put under way for a Carriageway. -/
def launch (c : Nat) (xs : List Flight) (s : State) : State :=
  s.modCwy c (fun y => { y with flights := xs.foldl (fun l x => x.insert l) y.flights })

/-- The place that an access of a Carriageway to a named place reaches, by the banks of its step (R125). -/
def State.bankLoc (s : State) (c : Nat) (l : Loc) : Loc :=
  if (s.cwy c).life.sealed % 2 = 0 then l
  else match l with
  | .deck a =>
    let u := a / 64 % 1310720
    .deck (deckAddr (a / 64 / 1310720) (s.bankUnit c 0 (u / 20480 * 32768 + u % 20480)) + a % 64)
  | .hbm a => if a < s.carveBase c then l else .hbm (s.carveBase c + 64 * s.bankUnit c 1 ((a - s.carveBase c) / 64) + a % 64)
  | l => l

def State.bankFlight (s : State) (c : Nat) (x : Flight) : Flight := { x with src := x.src.map (s.bankLoc c), dst := s.bankLoc c x.dst }

/-- The flits of an op are put under way between the places that it reaches. -/
def fly (c : Nat) (xs : List Flight) (s : State) : State := launch c (xs.map (s.bankFlight c)) s

/-- Bytes of Deck SRAM from a unit's address on, as a Carriageway reads them. -/
def State.deckRead (s : State) (c a n : Nat) : Bytes :=
  ((List.range (ceilDiv n 64)).flatMap (fun k => s.bytesAt (s.bankLoc c (.deck (a + 64 * k))))).take n

/-- A flit that has left: it is under way to a memory, or on its way to a combine port. -/
def depart (c : Nat) (x : Flight) (l : Loc) (s : State) : State :=
  let bs := match x.crc with | some e => slice e.2 0 64 | none => s.bytesAt l
  let t := s.taintAt l
  match x.dst with
  | .port b f => s.modBay b (fun y => { y with inbound := y.inbound ++ [{ due := x.cyc + x.lat, f := f % 35, data := bs, aslot := x.aslot
                                                                          bad := match x.crc, t with
                                                                            | some e, _ => some (.via e.1, true)
                                                                            | none, some p => some (.dir p, false)
                                                                            | none, none => none }] })
  | .link d m r tg f => linkPut c d m r tg f bs s
  | _ => launch c [{ x with cyc := x.cyc + x.lat, src := none, data := bs, taint := t }] s

/-- A flit is delivered as it arrived, and a failed CRC is an integrity error of the link (R14). -/
def deliverFlit (c : Nat) (x : Flight) (s : State) : State :=
  let s := match x.crc with | some e => recordErr c (.via e.1) 0 s | none => s
  match x.dst with
  | .deck a => { s with deck := memPut s.deck a x.data }
  | .sram a => sramPut a x.data x.taint s
  | .hbm a => hbmPut a x.data s
  | .stage a t l h f => stagePut c a t l h f x.data s
  | _ => s

/-- Every event of a Carriageway's flits up to a cycle takes place. -/
def landTo (fuel c t : Nat) (s : State) : State :=
  match fuel with
  | 0 => s
  | k + 1 =>
    match (s.cwy c).flights with
    | [] => s
    | x :: r =>
      if t < x.cyc then s
      else
        let s := s.modCwy c (fun y => { y with flights := r })
        landTo k c t (match x.src with | some l => depart c x l s | none => deliverFlit c x s)

/-- Every event of a Carriageway's flits up to a cycle takes place: a flit has at most two. -/
def land (c t : Nat) (s : State) : State := landTo (2 * (s.cwy c).flights.length) c t s

/-- The state as a unit that reads in cycle t finds the memories. -/
def State.seen (s : State) (c t : Nat) : State := land c t s

/-- The flits of every Carriageway take their course up to the core cycle of this moment. -/
def landNow (s : State) : State := foldS (s.cwys.filter (fun e => !e.2.flights.isEmpty)) (fun s e => land e.1 s.pw.core s) s

/-- The CRC failure of a flit of a transfer, if it has one. -/
def crcOf (crc : List FlitFail) (k : Nat) : Option (Nat × Bytes) := (crc.find? (fun e => e.flit == k)).map (fun e => (e.link, e.data))

/-- The flits of a transfer that leave one in each core cycle from t on (Table 6.11). -/
def streamOut (t lat n : Nat) (src dst : Loc) (crc : List FlitFail) : List Flight :=
  (List.range n).map (fun k => { cyc := t + k, src := some (src.plus k), dst := dst.plus k, lat := lat, crc := crcOf crc k })

/-- The flits of a block of bytes that is read whole, delivered one in each core cycle from t on. -/
def streamIn (t : Nat) (bs : Bytes) (dst : Loc) (crc : List FlitFail) : List Flight :=
  (List.range (bs.length / 64)).map (fun k =>
    { cyc := t + k, src := none, dst := dst.plus k, lat := 0, crc := crcOf crc k
      data := match crcOf crc k with | some e => slice e.2 0 64 | none => slice bs (64 * k) 64 })

/-- Bytes delivered together in cycle t. -/
def blockIn (t : Nat) (bs : Bytes) (dst : Loc) : List Flight :=
  (List.range (ceilDiv bs.length 64)).map (fun k => { cyc := t, src := none, dst := dst.plus k, lat := 0, data := slice bs (64 * k) 64 })

/-- Flits of a read of HBM, with the write-backs that the host owes for the addresses that they were read from (R360). -/
def State.withOwed (s : State) (addr : Nat → Option Nat) (fs : List Flight) : List Flight :=
  ((List.range fs.length).zip fs).map (fun e => { e.2 with owed := (addr e.1).bind s.owed })

/-- The bytes that a write-back brings into a flit read before it: those that were not the device's own by then. -/
def Flight.take (l off : Nat) (d : Bytes) (x : Flight) : Flight :=
  match x.owed, x.crc with
  | some (k, m), none =>
    if k = l then { x with data := (List.range 64).map (fun i =>
        if off ≤ 64 * l + i ∧ 64 * l + i < off + d.length ∧ bit m i = false then d.getD (64 * l + i - off) 0 else x.data.getD i 0), owed := none }
    else x
  | _, _ => x

/-- The host's write-back of lines at window offset `off` that the device has snooped: flits read from them since get its
bytes, and bytes that the device has written since stand (R360). -/
def writeBack (off : Nat) (d : Bytes) (s : State) : State :=
  let a := s.hdmBase + off
  let ls := s.host.snooped.filter (fun e => decide (off < 64 * e.1 + 64 ∧ 64 * e.1 < off + d.length))
  if ls.isEmpty then { s with hbm := memPut s.hbm a d }
  else
    let own := fun i => ls.any (fun e => e.1 == (off + i) / 64 && bit e.2 ((off + i) % 64))
    let bs := (List.range d.length).map (fun i => if own i then memRead s.hbm (a + i) else d.getD i 0)
    let got := fun (y : Cwy) => { y with flights := y.flights.map (fun x => ls.foldl (fun (x : Flight) (l : Nat × Nat) => x.take l.1 off d) x) }
    let s := { s with hbm := memPut s.hbm a bs, cwys := s.cwys.map (fun (e : Nat × Cwy) => (e.1, got e.2)) }
    s.modHost (fun h => { h with snooped := h.snooped.filter (fun e => !ls.contains e) })

/-- Flits of a read with an uncorrectable error. -/
def badFlits (ecc : List (Nat × Bool)) : List Nat := (ecc.filter (·.2)).map (·.1)

/-- HBM as a read finds it (R234).  DESIGN CHOICE (log 212): the 64 bytes of a flit with an uncorrectable error are free
values, since the spec says only that the word is delivered as read. -/
def State.asRead (s : State) (ecc : List (Nat × Bool)) (addr : Nat → Option Nat) : State :=
  let bad := (badFlits ecc).filterMap addr
  { s with hbm := ((List.range bad.length).zip bad).foldl (fun m e => memPut m e.2 (leBytes 64 (Config.freeValue (s.draws + e.1)))) s.hbm }

/-- Corrected HBM errors of a read are counted for their stacks (R234). -/
def countFixed (ecc : List (Nat × Bool)) (addr : Nat → Option Nat) (s : State) : State :=
  foldS ((ecc.filter (fun e => !e.2)).filterMap (fun e => addr e.1)) (fun s a =>
    { s with hbmFixed := tmod s.hbmFixed (stackOf a) 0 (· + 1) }) s

/-- The free values of a read's uncorrectable errors are drawn. -/
def drawBad (ecc : List (Nat × Bool)) (s : State) : State := { s with draws := s.draws + (badFlits ecc).length }

/-- Corrected and uncorrectable HBM errors of a read (R234): an uncorrectable one is an integrity error of the scope of the
die that reads. -/
def hbmErrors (c : Nat) (u : WinUnit) (ecc : List (Nat × Bool)) (addr : Nat → Option Nat) (s : State) : State :=
  countFixed ecc addr (foldS (badFlits ecc) (fun s _ => recordErr c u 0 s) (drawBad ecc s))

/-- Scope of a memory error that a die meets as reader: the Span, or the device on an Abutment (Table 10.1). -/
def dieScope (die : Die) : WinUnit := if die < 6 then .span die else .device

/-! ### Reads of HBM by an Abutment's own units (R14, R227, R234) -/

/-- The flits whose CRC failed, as they arrived, in place of what was sent. -/
def patch (m : Mem) (crc : List FlitFail) : Mem := crc.foldl (fun m e => memPut m (64 * e.flit) (slice e.data 0 64)) m

/-- The link between the two Abutments (Table 6.6). -/
def abutLink : Nat := 1043

/-- An error that an Abutment's own unit meets: of the step of the Carriageway that it works for, else an event at once.
DESIGN CHOICE (log 212): a host access works for the Carriageway whose carve-out it reaches, and for none elsewhere. -/
def unitErr (c : Option Nat) (u : WinUnit) (s : State) : State :=
  match c with
  | some c => recordErr c u 0 s
  | none => eventNow u 0 0 s

/-- Flits of an HBM read that cross the Viaduct on their way to a die: all of a Span's, and those that the other Abutment's
stacks give to an Abutment (R11, R14). -/
def fetchCrosses (die : Die) (a : Nat) : Bool := decide (die < 6) || abutOf (stackOf a) != die

/-- What a read of n bytes meets on its own flits. -/
def upTo (n : Nat) (f : ReadFail) : ReadFail :=
  { ecc := f.ecc.filter (fun e => decide (64 * e.1 < n)), crc := f.crc.filter (fun e => decide (64 * e.flit < n)) }

/-- n bytes of HBM as an Abutment's own unit receives them, as a memory that starts at 0: a flit that comes from the other
Abutment's stacks may fail its CRC. -/
def State.unitRead (s : State) (a n : Nat) (f : ReadFail) : Mem :=
  let f := upTo n f
  patch (memSlice (s.asRead f.ecc (fun k => some (a + 64 * k))).hbm a n) f.crc

/-- What such a read does beside: snoops, counts and errors. -/
def unitReads (c : Option Nat) (a n : Nat) (f : ReadFail) (s : State) : State :=
  let f := upTo n f
  let s := drawBad f.ecc (hbmSnoop a n s)
  let s := foldS (badFlits f.ecc) (fun s _ => unitErr c .device s) s
  let s := foldS f.crc (fun s e => unitErr c (.via e.link) s) s
  countFixed f.ecc (fun k => some (a + 64 * k)) s

end Sys2Proof.Machine
end

