-- ==== Sys2Proof/Machine/Pier.lean ====
section
/-! DEFINITION. Pier-beats: drive, conversion, repair, verdicts and application to accumulator slots
(sections 2, 3, 10), wide segments and ballast. -/

namespace Sys2Proof.Machine

/-- The counts of an admission slot changed for the current run (R246). -/
def addCount (c aslot : Nat) (f : Counts → Counts) (s : State) : State :=
  s.modRun c (fun r => { r with counts := tmod r.counts aslot {} f })

/-- Saturations of additions join the unrepaired-saturation counts (R34): that of the admission slot, where the
result serves one, and that of the layer, whose count is 0 in a step where it ran wide (R41). -/
def countSats (c aslot layer n : Nat) (s : State) : State :=
  if n = 0 then s
  else
    let s := if aslot = 0xFFFF then s else addCount c aslot (fun k => { k with unrep := k.unrep + n }) s
    s.modRun c (fun x => if x.grants.contains layer then x else { x with laySats := tmod x.laySats layer 0 (· + n) })

/-- Outlier clips join the counts of their admission slot (R27) and of their layer (R41). -/
def countClips (c aslot layer n : Nat) (s : State) : State :=
  if n = 0 then s
  else (addCount c aslot (fun k => { k with clips := k.clips + n }) s).modRun c (fun x =>
    { x with layClips := tmod x.layClips layer 0 (· + n) })

/-! ### Contents of a Pier image (Table 9.1) -/

/-- Bytes of a Pier image (Table 9.1). -/
def imageLen : Nat := 138240

def nibble (m : Mem) (byte_ j : Nat) : Nat := if j % 2 = 0 then (memRead m byte_).toNat % 16 else (memRead m byte_).toNat / 16
def codebook (m : Mem) (e : Nat) : Int := sext 8 (memRead m (137232 + e)).toNat
def rangeShift (m : Mem) (j : Nat) : Nat := nibble m (137248 + j / 2) j
/-- Weight of row i in data column j; stored value of row i in checksum k; weight of sentinel k. -/
def dataW (m : Mem) (i j : Nat) : Int := codebook m (nibble m (256 * i + j / 2) j)
def csumV (m : Mem) (i k : Nat) : Int := sext 8 (memRead m (131072 + 8 * i + k)).toNat
def sentW (m : Mem) (i k : Nat) : Int := codebook m (nibble m (135168 + 4 * i + k / 2) k)

/-- Weight of row i in physical column j (R49, R50): data, checksum or sentinel. -/
def colW (m : Mem) (i j : Nat) : Int := if j < 512 then dataW m i j else if j < 520 then csumV m i (j - 512) else sentW m i (j - 520)

/-- Rows with an integer that is not 0, and the integer. -/
def driven (ds : List Int) : List (Nat × Int) := ((List.range ds.length).zip ds).filter (fun e => e.2 != 0)

/-- Σ over rows of d_i × w_i. -/
def dot (ds : List Int) (w : Nat → Int) : Int := ((driven ds).map (fun e => e.2 * w e.1)).sum

/-- Exact analogue target of a data column, and exact extracted part (section 2). -/
def yA (m : Mem) (b : Beat) (j : Nat) : Int := dot b.drive (fun i => dataW m i j)
def yE (m : Mem) (b : Beat) (j : Nat) : Int := (b.ext.map (fun e => e.2 * dataW m e.1 j)).sum

/-- W_ik − 16 × v_ik: the residue of a checksum cell (R51), and the group's data sum W_ik. -/
def groupW (m : Mem) (i k : Nat) : Int := ((List.range 64).map (fun j => dataW m i (64 * k + j))).sum
def csumR (m : Mem) (i k : Nat) : Int := groupW m i k - 16 * csumV m i k

/-! ### Extraction and drive (R25 to R27) -/

/-- Segment of 512 signed bytes. -/
def segOf (bs : Bytes) : List Int := (slice bs 0 512).map (fun b => sext 8 b.toNat)

/-- An element outside the 4-bit drive range (R25). -/
def isOutlier (x : Int) : Bool := x < -8 || x > 7

/-- Larger |x| first, ties by lower row. -/
def outlierBefore (a b : Nat × Int) : Bool :=
  b.2.natAbs < a.2.natAbs || a.2.natAbs == b.2.natAbs && a.1 < b.1

/-- Outlier rows in order of extraction (R26). -/
def outliers (xs : List Int) : List (Nat × Int) :=
  (((List.range xs.length).zip xs).filter (fun e => isOutlier e.2)).foldr
    (fun e acc => (acc.takeWhile (fun x => outlierBefore x e)) ++ e :: (acc.dropWhile (fun x => outlierBefore x e))) []

/-- The extracted rows X: at most 16 (R26). -/
def extracted (xs : List Int) : List (Nat × Int) := (outliers xs).take 16

/-- Drive integers d_i (R27). -/
def driveOf (xs : List Int) : List Int :=
  let ex := (extracted xs).map (·.1)
  ((List.range xs.length).zip xs).map (fun e => if ex.contains e.1 then 0 else clampI e.2 (-8) 7)

/-! ### Drive and integration (R53, R57, Tables 3.2 to 3.4), in executed core cycles -/

/-- Pulse unit, starts of the two phases, and the charge transfer, by weight mode. -/
def pulseUnit (mode : Nat) : Nat := if mode = 0 then 24 else 12
def posPhase (mode : Nat) : Nat := if mode = 0 then 8 else 4
def negPhase (mode : Nat) : Nat := if mode = 0 then 208 else 112
def transferAt (mode : Nat) : Nat := if mode = 0 then 416 else 224
/-- Beat length and the offset of the row-write window. -/
def beatLen (mode : Nat) : Nat := if mode = 0 then 512 else 256
def rowWindow (mode : Nat) : Nat := if mode = 0 then 448 else 240

/-- Row i is driven at an offset of its beat, in the phase of its sign: its pulse of |d| units starts with its row
group (R53). -/
def pulseOn (mode i : Nat) (d : Int) (off : Nat) : Bool :=
  let a := (if 0 < d then posPhase mode else negPhase mode) + i / 64
  decide (a ≤ off ∧ off < a + d.natAbs * pulseUnit mode)

/-- Cycles before an offset in which the row's pulse is on. -/
def pulseCycles (mode i : Nat) (d : Int) (off : Nat) : Nat :=
  min (d.natAbs * pulseUnit mode) (off - ((if 0 < d then posPhase mode else negPhase mode) + i / 64))

/-- What a column's integrator holds at an offset, in cell charges of one driven cycle: it adds in the positive phase
and subtracts in the negative one (R53). -/
def integrator (mode : Nat) (ds : List Int) (w : Nat → Int) (off : Nat) : Int :=
  ((driven ds).map (fun e => (if 0 < e.2 then 1 else -1) * (pulseCycles mode e.1 e.2 off : Int) * w e.1)).sum

/-- The charge that a column's sample capacitor receives, in product units: the exact target of its conversion. -/
def sampled (mode : Nat) (ds : List Int) (w : Nat → Int) : Int := integrator mode ds w (transferAt mode) / (pulseUnit mode : Int)

/-! ### BEAT, BALLAST, WSEG -/

/-- Weight mode of a Bay: 0 while no Pier is programmed. -/
def State.bayMode (s : State) (bn : Nat) : Nat := (s.bay bn).mode.getD 0

/-- Offset at which a Pier-beat is applied to its slot (R81). -/
def applyOff (mode : Nat) : Nat := if mode = 0 then 1008 else 544

/-- Logical Piers of a mask, with their rank. -/
def maskPiers (mask : Nat) : List (Nat × Nat) :=
  let ls := (List.range 16).filter (bit mask)
  (List.range ls.length).zip ls

/-- The segment record of a unit in the group slice of a Bay: 576 bytes (R143). -/
def State.segRecord (s : State) (c span bay unit : Nat) : Bytes := s.deckRead c (deckAddr span (bay / 4 * 32768 + unit % 32768)) 576

/-- A Pier starts a beat: the step's mark of its live beats, the beat in flight (R244, R56). -/
def startBeat (c bn p : Nat) (b : Beat) (s : State) : State :=
  let st := (s.cwy c).life.step
  let s := s.modPier bn p (fun x => { x with
    live := x.live + 1, marks := if x.live % 65536 = 0 then st :: x.marks else x.marks, lastStart := some b.start })
  s.modBay bn (fun y => { y with beats := tmod y.beats p [] (· ++ [b]), lastBeat := some b.start })

/-- A Bay's main array is taken for n cycles from t on; what has ended by then is forgotten (R78). -/
def useArray (bn t n : Nat) (s : State) : State :=
  s.modBay bn (fun y => { y with array := y.array.filter (fun e => decide (t < e.1 + e.2)) ++ [(t, n)] })

/-- One logical Pier of a BEAT op (R54, R75): only a READY physical Pier beats, and an overdue one makes the step's
certificates accuracy-reduced (R71). -/
def beatOne (op : Op) (bay slot unit l : Nat) (s : State) : State :=
  let bn := bayNo op.die bay
  let p := s.phys bn l
  let t := s.opTime op
  if s.pstate bn p != 2 then s
  else
    let r := (s.seen op.cwy (t - 1)).segRecord op.cwy op.die bay unit
    let xs := segOf r
    let aslot := getLe r 514 2
    let clips := (outliers xs).length - 16
    let late := (s.pier bn p).overdue
    let b : Beat := { start := t, cwy := op.cwy, layer := op.layer, slot := slot, u := getLe r 512 1, aslot := aslot
                      drive := driveOf xs, ext := extracted xs, clips := clips, trims := (s.pier bn p).trims }
    countClips op.cwy aslot op.layer clips (s.modRun op.cwy (fun x => { x with accRed := x.accRed || late }) |> startBeat op.cwy bn p b)

/-- The Bay and Pier mask of a BEAT or BALLAST word, and the slot, first record and stride of a BEAT (Table 6.10). -/
def isBallast (op : Op) (cls bay mask w : Nat) : Bool := opNames op cls w && fld w 84 8 == bay && fld w 68 16 == mask
def isBeat (op : Op) (bay mask slot rec stride w : Nat) : Bool :=
  isBallast op 1 bay mask w && fld w 63 5 == slot && fld w 48 15 == rec && fld w 40 8 == stride

/-- Every logical Pier of the mask reads its record and starts its beat; its records are read before cycle t (R144). -/
def beatRun (op : Op) (bay mask slot rec stride : Nat) (s : State) : State :=
  let s := foldS (maskPiers mask) (fun s e => beatOne op bay slot (rec + e.1 * stride) e.2 s) s
  let s := useArray (bayNo op.die bay) (s.opTime op) (16 * (maskPiers mask).length) s
  useUntil op.cwy (s.opTime op + applyOff (s.bayMode (bayNo op.die bay))) s

/-- BEAT (R54). -/
def beatOp (op : Op) (bay mask slot rec stride : Nat) : State → State :=
  issue op (isBeat op bay mask slot rec stride) (beatRun op bay mask slot rec stride)

def execBeat (op : Op) (bay mask slot rec stride : Nat) (s : State) : Host.Outcome State Fault Refusal :=
  go s (beatOp op bay mask slot rec stride)

/-- A Pier is driven by a beat that no certificate needs: ballast, calibration or inspection (R128, R270, R280). -/
def ownBeat (bn p t : Nat) (s : State) : State :=
  (s.modPier bn p (fun x => { x with lastStart := some t })).modBay bn (fun y => { y with lastBeat := some t })

/-- Every row of each READY Pier of the mask is driven with 1; codes discarded, no verdict, no slot (R128). -/
def ballastRun (op : Op) (bay mask : Nat) (s : State) : State :=
  let bn := bayNo op.die bay
  let t := s.opTime op
  let ps := ((maskPiers mask).map (fun e => s.phys bn e.2)).filter (fun p => s.pstate bn p == 2)
  if ps.isEmpty then s else useUntil op.cwy (t + applyOff (s.bayMode bn)) (foldS ps (fun s p => ownBeat bn p t s) s)

/-- BALLAST (R128). -/
def ballastOp (op : Op) (bay mask : Nat) : State → State := issue op (isBallast op 2 bay mask) (ballastRun op bay mask)

def execBallast (op : Op) (bay mask : Nat) (s : State) : Host.Outcome State Fault Refusal := go s (ballastOp op bay mask)

/-- The exact products of all 512 rows of a segment record with an image, times 2^u (R40, R33). -/
def wideVals (m : Mem) (r : Bytes) : List Int :=
  (List.range 512).map (fun j => dot (segOf r) (fun i => dataW m i j) * (2 ^ getLe r 512 1 : Int))

def isWseg (op : Op) (bay pier slot rec w : Nat) : Bool :=
  opNames op 3 w && fld w 84 8 == bay && fld w 80 4 == pier && fld w 75 5 == slot && fld w 60 15 == rec

/-- The exact products with the logical Pier's weights, applied at t + 528; a residue mismatch is an error of the Bay. -/
def wsegRun (op : Op) (bay pier slot rec : Nat) (residue : Bool) (s : State) : State :=
  let bn := bayNo op.die bay
  let t := s.opTime op
  let r := (s.seen op.cwy (t - 1)).segRecord op.cwy op.die bay rec
  let aslot := getLe r 514 2
  let s := useArray bn t 512 s
  let vals := wideVals (s.pier bn (s.phys bn pier)).img r
  let clips := ((segOf r).filter isOutlier).length - 16
  let s := s.modBay bn (fun y => { y with contribs := y.contribs ++
    [{ due := t + 528, slot := slot, aslot := aslot, cwy := op.cwy, layer := op.layer, vals := vals }] })
  let s := s.when residue (recordErr op.cwy (.bay op.die bay) 0)
  useUntil op.cwy (t + 528) (countClips op.cwy aslot op.layer clips s)

/-- WSEG (R40). -/
def wsegOp (op : Op) (bay pier slot rec : Nat) (residue : Bool) : State → State :=
  issue op (isWseg op bay pier slot rec) (wsegRun op bay pier slot rec residue)

def execWseg (op : Op) (bay pier slot rec : Nat) (residue : Bool) (s : State) : Host.Outcome State Fault Refusal :=
  go s (wsegOp op bay pier slot rec residue)

/-! ### Cycles that the running shapes leave free (R111) -/

/-- The first cycle from a bound on that is congruent to a phase mod 16. -/
def phaseFrom (bound phase : Nat) : Nat := bound + (phase + 16 - bound % 16) % 16

/-- The cycle in which an arrival completed, in the records of the running parity (R340). -/
def State.arrived (s : State) (c : Nat) (a : Arrival) : Option Nat :=
  ((s.cwy c).arrivals.find? (fun r => r.parity == (s.cwy c).run.parity && r.rxbuf == a.rxbuf && r.tag == a.tag)).bind (·.cyc)

/-- The cycle in which streams stalled at a placed cycle resume, once every arrival named is complete: the first one at
least 8 after the last arrival, in the mask phase of the placed cycle (R113). -/
def State.resumeAt (s : State) (c placed : Nat) (l : List Arrival) : Option Nat :=
  if l.all (fun a => (s.arrived c a).isSome) then
    some (max placed (phaseFrom ((l.filterMap (s.arrived c)).foldl max 0 + 8) (placed % 16)))
  else none

/-- The earliest core cycle in which a body's op of a cycle can issue, seen from cycle t: a pending stall moves the ops
behind it to where the streams resume, which is after t while an arrival is missing (R113). -/
def State.dueFrom (s : State) (c t cyc : Nat) : Nat :=
  let r := (s.cwy c).run
  let at_ := fun k => r.start + r.stall + k
  match r.wait with
  | some (w, l) => if w ≤ cyc then (s.resumeAt c (at_ w) l).getD (max (at_ w) t) + (cyc - w) else at_ cyc
  | none => at_ cyc

/-- The occupancy map ahead of cycle t on a Span (R111): the op words still to be issued by a Carriageway, each with the
earliest core cycle of its issue.  A released body runs its own shape from its gap's end; one that a Keystone in progress
may release can run any shape from now on. -/
def State.opsAhead (s : State) (c sp t : Nat) : List (Nat × Nat) :=
  let x := s.cwy c
  if x.run.inBody then
    ((s.stream c x.run.shape sp).filter (fun w => decide (x.run.now ≤ opCycle w))).map (fun w => (w, s.dueFrom c t (opCycle w)))
  else if x.key.ready then (s.stream c x.run.shape sp).map (fun w => (w, max t (x.run.gapFrom + 64 * x.run.gap) + opCycle w))
  else if x.key.own.isSome then (s.spanOps c sp).map (fun w => (w, t + opCycle w))
  else []

/-- The ops ahead of cycle t that name a Bay, of some classes. -/
def State.bayAhead (s : State) (bn t : Nat) (classes : List Nat) : List (Nat × Nat) :=
  (s.cwys.flatMap (fun e => s.opsAhead e.1 (bn / 256) t)).filter (fun e => classes.contains (opClass e.1) && opBay e.1 == bn % 256)

/-- Start cycles of the beats of a physical Pier that lie ahead of cycle t. -/
def State.startsAhead (s : State) (bn p t : Nat) : List Nat :=
  ((s.bayAhead bn t [1, 2]).filter (fun e => (maskPiers (fld e.1 68 16)).any (fun l => s.phys bn l.2 == p))).map (·.2)

/-- A Pier is free for a beat of the device's own in cycles t to t + n − 1: none of its beats meets them (R55, R111). -/
def State.pierFree (s : State) (bn p t n : Nat) : Bool :=
  let len := beatLen (s.bayMode bn)
  (match (s.pier bn p).lastStart with | some b => decide (b + len ≤ t ∨ t + n ≤ b) | none => true) &&
    (s.startsAhead bn p t).all (fun b => decide (b + len ≤ t ∨ t + n ≤ b))

/-- Main-array cycles of a Bay that are taken or lie ahead of cycle t.  DESIGN CHOICE: a BEAT op of k Piers takes 16·k
cycles from its issue on, each of its Pier-beats 16 of them (R78); Table 6.11 names t to t + 15 for one (log 174). -/
def State.arrayTaken (s : State) (bn t : Nat) : List (Nat × Nat) :=
  (s.bay bn).array ++ (s.bayAhead bn t [1, 3]).map (fun e => (e.2, if opClass e.1 == 1 then 16 * (maskPiers (fld e.1 68 16)).length else 512))

/-- A Bay's main array is free in cycles t to t + n − 1. -/
def State.arrayFree (s : State) (bn t n : Nat) : Bool := (s.arrayTaken bn t).all (fun b => decide (b.1 + b.2 ≤ t ∨ t + n ≤ b.1))

/-- A beat of the device's own may start in a Pier in cycle t: no op's beat and no other work of the device's own meets
it, and no row of a refresh waits, which goes first (R55, R111, R270, R280). -/
def State.ownSlot (s : State) (bn p t : Nat) : Bool :=
  !s.halted && s.dieOn (bn / 256) && decide ((s.pier bn p).rowFree ≤ t) && (s.pier bn p).refreshRow.isNone && s.pierFree bn p t (beatLen (s.bayMode bn))

/-- Calibration beats of a running pass are still to run in a Pier. -/
def State.calWaits (s : State) (bn p : Nat) : Bool := match (s.pier bn p).calLeft with | some (_ + 1) => true | _ => false

/-- Carriageways between bodies whose itinerary beats a Bay that does not run (R128). -/
def State.coldFor (s : State) (bn : Nat) : List Nat :=
  s.enabledCwys.filter (fun c => !(s.cwy c).run.inBody && s.beats c bn && !(s.cwy c).warm.contains bn)

/-- A beat of the device's own may bring a Bay into the running state: the ramp share of its Carriageway has room in this ramp
window (R128, R280). -/
def State.mayHeat (s : State) (bn : Nat) : Bool := (s.coldFor bn).all (fun c => decide ((s.cwy c).heated < s.rampShare c))

/-- Such a beat makes the Bay one that runs, which ballast keeps running and the ramp takes out again (R129, R130). -/
def heat (bn : Nat) (s : State) : State :=
  foldS (s.coldFor bn) (fun s c => s.modCwy c (fun x => { x with
    warm := x.warm.takeWhile (fun b => decide (b < bn)) ++ bn :: x.warm.dropWhile (fun b => decide (b < bn)), heated := x.heated + 1 })) s

/-- A calibration beat runs in a Pier (R280). -/
def calBeat (bn p t : Nat) (s : State) : State := ownBeat bn p t (s.modPier bn p (fun x => { x with calLeft := x.calLeft.map (· - 1) }))

/-- Bays of the itinerary that run at a cycle (R128, R129). -/
def State.runningBays (s : State) (c t : Nat) : List Nat :=
  (s.bays.filter (fun e => match e.2.lastBeat with
    | some x => decide (t < x + 16000) && s.beats c e.1
    | none => false)).map (·.1)

/-- The Bays that ballast keeps running from a cycle on in which a body ends or stalls: those of the itinerary that run,
and those that still ramp out, which it does not beat (R128, R129). -/
def State.keptWarm (s : State) (c t : Nat) : List Nat := s.runningBays c t ++ (s.cwy c).warm.filter (fun b => !s.beats c b)

/-! ### Conversion and repair -/

/-- Gain and offset of a column; a column never calibrated stands at gain 1.0 and offset 0, and those of a draw are free
values in the ranges of R279. -/
def trimOf (t : Trims) (j : Nat) : Nat × Int :=
  match t with
  | .given t => tgetD t j (16384, 0)
  | .drawn n =>
    let v := Config.freeValue n / 2 ^ (24 * j)
    (12288 + v % 2 ^ 16 % 8193, sext 8 (v / 2 ^ 16 % 256))

/-- Raw readings kept to the converter's range (section 3, Trims and the delivered code). -/
def rawClamp (mode : Nat) (r : Int) : Int := if mode = 0 then clampI r (-1024) 1023 else clampI r (-256) 255

/-- The fine value nearest to t that R60 allows for an exact target y at range shift sh: within half a step of the
target inside the converter's range, at a rail code beyond it (R29). -/
def soundFine (mode : Nat) (y : Int) (sh : Nat) (t : Int) : Int :=
  let d : Int := 2 ^ sh
  if y < loOf mode * d then min t (8 * loOf mode + 3)
  else if (8 * hiOf mode + 7) * d < 8 * y then max t (8 * hiOf mode - 4)
  else clampI t ((8 * y - 4 * d) / d + 1) ((8 * y + 4 * d - 1) / d)

/-- The conditions of R30 hold for a Pier's readout: its Bay's calibration is current and the device reports no
accuracy-reduced operation that reaches it (R71, R286, R319). -/
def State.readoutSound (s : State) (bn p : Nat) : Bool :=
  s.calCurrent bn && !s.vref.faulted && !s.outsideJunction && !(s.pier bn p).overdue

/-- The codes of one slot join a beat: converter k gives column 8k + m (R58, R59).  A sound column's fine value lies
where R60 puts it; `free` tells that R60 promises nothing for these readings. -/
def addSlot (img : Mem) (mode m : Nat) (raw : List Int) (free : Bool) (b : Beat) : Beat :=
  ((List.range 66).zip raw).foldl (fun b e =>
    let j := 8 * e.1 + m
    let tr := trimOf b.trims j
    let t := trimFine (rawClamp mode e.2) tr.2 tr.1
    let t := if free then t else soundFine mode (sampled mode b.drive (fun i => colW img i j)) (rangeShift img j) t
    { b with fine := tset b.fine j t, code := tset b.code j (codeOf mode t) }) { b with free := b.free || free }

/-- All 528 codes have arrived. -/
def Beat.full (b : Beat) : Bool := b.code.length == 528

/-- Data columns with rail codes, ascending. -/
def Beat.rails (mode : Nat) (b : Beat) : List Nat := (List.range 512).filter (fun j => isRail mode (tgetD b.code j 0))

/-- A data column that is not repaired and carries a rail code. -/
def Beat.unrepRail (mode : Nat) (b : Beat) (j : Nat) : Bool := isRail mode (tgetD b.code j 0) && !b.repaired.contains j

/-- Group k holds an unrepaired rail code. -/
def groupRail (mode : Nat) (b : Beat) (k : Nat) : Bool := (List.range 64).any (fun j => b.unrepRail mode (64 * k + j))

/-- What a column's fine value lies off its exact target, in eighths; a repaired column is exact. -/
def fineOff (m : Mem) (b : Beat) (j : Nat) : Int :=
  if b.repaired.contains j then 0 else tgetD b.fine j 0 * (2 ^ rangeShift m j : Int) - 8 * yA m b j

/-- Group k keeps the bound of R229: over its columns, and over its columns without any one of them. -/
def groupHeld (m : Mem) (b : Beat) (k : Nat) : Bool :=
  let js := (List.range 64).map (64 * k + ·)
  let ds := js.map (fineOff m b)
  let dm := 16 * (js.map (fun j => 2 ^ rangeShift m j)).foldl max 1
  decide (ds.sum.natAbs < dm) && ds.all (fun d => decide ((ds.sum - d).natAbs < dm))

/-- One column of a group that is brought within R229: of the two fine values next to its target, the one that leads the
sum so far back towards 0. -/
def holdColumn (m : Mem) (mode : Nat) (x : Beat × Int) (j : Nat) : Beat × Int :=
  if x.1.repaired.contains j then x
  else
    let d : Int := 2 ^ rangeShift m j
    let y := 8 * yA m x.1 j
    let t := if 0 ≤ x.2 then y / d else -((-y) / d)
    ({ x.1 with fine := tset x.1.fine j t, code := tset x.1.code j (codeOf mode t) }, x.2 + (t * d - y))

/-- The groups of a sound beat keep the bound of R229, those with an unrepaired rail code apart: readings that break it are
moved within R60. -/
def holdGroups (m : Mem) (mode : Nat) (b : Beat) : Beat :=
  (List.range 8).foldl (fun b k =>
    if groupRail mode b k || groupHeld m b k then b else (((List.range 64).map (64 * k + ·)).foldl (holdColumn m mode) (b, 0)).1) b

/-- The repair of a beat with all its codes (R31): its first two rail columns, where a sound beat keeps R229. -/
def Beat.repair (m : Mem) (mode : Nat) (b : Beat) : Beat :=
  let fix := fun (b : Beat) => { b with repaired := (b.rails mode).take 2 }
  if b.free then fix b else fix (holdGroups m mode (fix b))

/-- CONVERSION_SLOT (R58): the codes reach the oldest beat that lacks slot m; when the beat has all its
codes the first two rail columns are repaired and further ones counted (R31). -/
def conversionOp (span bay phys m : Nat) (raw : List Int) (faulty : Bool) (s : State) : State :=
  let bn := bayNo span bay
  let mode := s.bayMode bn
  let bs := tgetD (s.bay bn).beats phys []
  match if s.dieOn span then bs.findIdx? (fun b => (tget b.code m).isNone) else none with
  | none => s
  | some i =>
    match bs[i]? with
    | none => s
    | some b =>
      let b := addSlot (s.pier bn phys).img mode m raw (faulty || !s.readoutSound bn phys) b
      let b := if b.full then b.repair (s.pier bn phys).img mode else b
      let n := if b.full then (b.rails mode).length - 2 else 0
      countSats b.cwy b.aslot b.layer n (s.modBay bn (fun y => { y with beats := tset y.beats phys (bs.set i b) }))

def execConversionSlot (span bay phys m : Nat) (raw : List Int) (faulty : Bool) (s : State) : Host.Outcome State Fault Refusal :=
  go s (conversionOp span bay phys m raw faulty)

/-! ### Verdicts -/

/-- Sentinel m: passes (R62), and counts a margin event when it passes far from its target (R63). -/
def sentPass (m : Mem) (mode : Nat) (b : Beat) (k : Nat) : Bool :=
  faithful mode (dot b.drive (fun i => sentW m i k)) (rangeShift m (520 + k)) (tgetD b.code (520 + k) 0)
def sentMargin (m : Mem) (b : Beat) (k : Nat) : Bool :=
  let sh := rangeShift m (520 + k)
  decide (3 * 2 ^ sh < (tgetD b.fine (520 + k) 0 * (2 ^ sh : Int) - 8 * dot b.drive (fun i => sentW m i k)).natAbs)

/-- Q_k, exact (section 3, Checksums). -/
def csumQ (m : Mem) (b : Beat) (k : Nat) : Int := dot b.drive (fun i => csumR m i k)

/-- Checksum k (R65, R66): none when skipped, else whether it passes. -/
def csumCheck (m : Mem) (mode : Nat) (b : Beat) (k : Nat) : Option Bool :=
  let cc := tgetD b.code (512 + k) 0
  if isRail mode cc || groupRail mode b k then none
  else
    let dc : Int := 2 ^ rangeShift m (512 + k)
    let js := (List.range 64).map (64 * k + ·)
    let o := (js.map (fun j => if b.repaired.contains j then yA m b j else tgetD b.code j 0 * (2 ^ rangeShift m j : Int))).sum
    let e := 16 * cc * dc + csumQ m b k
    let t := ((js.filter (fun j => !b.repaired.contains j)).map (fun j => (2 ^ rangeShift m j : Int))).sum + 16 * dc
    some (decide (((o - e).natAbs : Int) < t))

/-- Group-sum check k (R228), in eighths: none when skipped, else whether it passes. -/
def gsumCheck (m : Mem) (mode : Nat) (b : Beat) (k : Nat) : Option Bool :=
  if groupRail mode b k then none
  else
    let js := (List.range 64).map (64 * k + ·)
    let f := (js.map (fun j => if b.repaired.contains j then 8 * yA m b j else tgetD b.fine j 0 * (2 ^ rangeShift m j : Int))).sum
    let sk := 16 * dot b.drive (fun i => csumV m i k) + csumQ m b k
    let dm := (js.map (fun j => 2 ^ rangeShift m j)).foldl max 1
    some (decide ((f - 8 * sk).natAbs < 16 * dm))

/-- Shadow sample of column j (R232). -/
def sampCheck (m : Mem) (mode : Nat) (b : Beat) (j : Nat) : Bool :=
  faithful mode (yA m b j) (rangeShift m j) (tgetD b.code j 0)

/-- How many of the eight checks satisfy a condition, and their bitmap. -/
def count8 (f : Nat → Bool) : Nat := ((List.range 8).filter f).length
def bits8 (f : Nat → Bool) : Nat := ((List.range 8).map (fun k => if f k then 2 ^ k else 0)).sum

/-- Bitmap of the failed checks: sentinels 0 to 7, checksums 8 to 15, group sums 16 to 23, sample 24. -/
def failedChecks (m : Mem) (mode : Nat) (b : Beat) (samp : Nat) : Nat :=
  bits8 (fun k => !sentPass m mode b k) + 256 * bits8 (fun k => csumCheck m mode b k == some false) +
  65536 * bits8 (fun k => gsumCheck m mode b k == some false) + 2 ^ 24 * b2n (!sampCheck m mode b samp)

/-- Staged trims of a Pier take effect (R282); the Bay may become current (R285). -/
def takeTrims (bn p : Nat) (s : State) : State :=
  match (s.pier bn p).staged with
  | none => s
  | some t =>
    noteCurrent (s.modPier bn p (fun x => { x with
      trims := t.trims, taps := some t.taps, staged := none, passVref := t.vref, passTemp := t.temp, passBeat := some t.beat }))

/-- Margin events of a Pier join its count and that of its Bay; each one that finds margin_thr or more within 2^20 service
beats triggers a pass (R283). -/
def addMargins (bn p n : Nat) (s : State) : State :=
  if n = 0 then s
  else
    let t := serviceBeat s
    let s := s.modPier bn p (fun x => { x with margins := x.margins + n })
    let s := s.modBay bn (fun y => { y with margins := (y.margins ++ List.replicate n t).filter (fun e => decide (t < e + 2 ^ 20)) })
    let thr := s.calf 40 8
    if thr ≠ 0 ∧ thr ≤ (s.bay bn).margins.length then triggerPass bn s else s

/-- BEAT_VERDICT (R67): the four checks of R230 on the oldest beat with all its codes; the shadow-sampled column is
drawn from the device's random source (R231), and a residue mismatch of the beat's extraction, repair, sentinel,
checksum or sampling products is an error of the Bay (R102). -/
def verdictOp (span bay phys : Nat) (residue : Bool) (s : State) : State :=
  let bn := bayNo span bay
  let mode := s.bayMode bn
  let bs := tgetD (s.bay bn).beats phys []
  match if s.dieOn span then bs.findIdx? (fun b => b.full && !b.verdict) else none with
  | none => s
  | some i =>
    match bs[i]? with
    | none => s
    | some b =>
      let m := (s.pier bn phys).img
      let draw := drawRandom 2 s
      let samp := leNat draw.1 % 512
      let s := draw.2
      let fails := failedChecks m mode b samp
      let s := s.modBay bn (fun y => { y with beats := tset y.beats phys (bs.set i { b with verdict := true }) })
      let s := addCount b.cwy b.aslot (fun k => { k with
        sentPass := k.sentPass + count8 (sentPass m mode b)
        csumPass := k.csumPass + count8 (fun j => csumCheck m mode b j == some true)
        csumSkip := k.csumSkip + count8 (fun j => csumCheck m mode b j == none)
        gsumPass := k.gsumPass + count8 (fun j => gsumCheck m mode b j == some true)
        gsumSkip := k.gsumSkip + count8 (fun j => gsumCheck m mode b j == none)
        sampPass := k.sampPass + b2n (sampCheck m mode b samp) }) s
      let s := s.when residue (recordErr b.cwy (.bay span bay) 0)
      let s := addMargins bn phys (count8 (fun k => sentPass m mode b k && sentMargin m b k)) s
      if fails = 0 then s else recordErr b.cwy (.pier span bay phys) fails s

def execBeatVerdict (span bay phys : Nat) (residue : Bool) (s : State) : Host.Outcome State Fault Refusal :=
  go s (verdictOp span bay phys residue)

/-! ### Slots -/

/-- The contribution of a beat with all its codes: p_j × 2^u of every data column (R32, R33, R80). -/
def Beat.contrib (m : Mem) (mode : Nat) (b : Beat) : Contrib :=
  { due := b.start + applyOff mode, slot := b.slot, aslot := b.aslot, cwy := b.cwy, layer := b.layer
    vals := (List.range 512).map (fun j =>
      ((if b.repaired.contains j then yA m b j else tgetD b.code j 0 * (2 ^ rangeShift m j : Int)) + yE m b j) * (2 ^ b.u : Int)) }

/-- Number of a cell: 512 × slot + column. -/
def cellNo (slot j : Nat) : Nat := 512 * slot + j

/-- One cell after an addition: saturating, its residue kept (R34, R85). -/
def addCell (x : Cell) (v : Int) : Cell :=
  let t := x.value + v
  let y := clampI t (-2147483648) 2147483647
  { value := y, res := (y % 7).toNat, sat := x.sat || t != y }

/-- Sum of a column over contributions. -/
def sumAt (cs : List Contrib) (j : Nat) : Int :=
  (cs.map (fun c => if c.col0 ≤ j then c.vals.getD (j - c.col0) 0 else 0)).sum

/-- All contributions of one cycle to one slot added as one multi-operand sum (R82), and the cells whose addition
saturated (R34). -/
def addToSlot (slot : Nat) (cs : List Contrib) (cells : Tab Cell) : Tab Cell × List Nat :=
  (List.range 512).foldl (fun a j =>
    let v := sumAt cs j
    let x := tgetD a.1 (cellNo slot j) {}
    let y := addCell x v
    (if v = 0 then a.1 else tset a.1 (cellNo slot j) y, if x.value + v = y.value then a.2 else cellNo slot j :: a.2)) (cells, [])

/-- The cells of a slot removed: value, res and sat 0. -/
def clearCells (slot : Nat) (cells : Tab Cell) : Tab Cell := cells.filter (fun e => !(e.1 / 512 == slot))

/-- Saturations of one slot's sum in a cycle join the counts of the request and layer of its first contribution:
DESIGN CHOICE where several requests contribute to it (R34, R82; log 41). -/
def countSlot (mine : List Contrib) (n : Nat) (s : State) : State :=
  match mine with
  | m0 :: _ => countSats m0.cwy m0.aslot m0.layer n s
  | [] => s

/-- The beats of a bay corrector whose contributions fall into a cycle. -/
def Bay.beatsDue (y : Bay) (mode t : Nat) : List Contrib :=
  y.beats.flatMap (fun e => (e.2.filter (fun b => b.full && b.start + applyOff mode == t)).map (fun b => b.contrib (y.pier e.1).img mode))

/-- The contributions of one cycle at a bay corrector, and the slots they name, ascending. -/
def Bay.cycleAdds (y : Bay) (mode t : Nat) : List Contrib := y.beatsDue mode t ++ y.contribs.filter (fun c => c.due == t)
def slotsOf (cs : List Contrib) : List Nat := (List.range 32).filter (fun n => cs.any (fun c => c.slot == n))

/-- The contributions of the two lowest-numbered slots named (R82). -/
def twoSlots (cs : List Contrib) : List Contrib := cs.filter (fun c => ((slotsOf cs).take 2).contains c.slot)

/-- The slot that a drain or send of cycle t reads. -/
def Bay.readIn (y : Bay) (t : Nat) : Option Nat := y.lastRead.bind (fun e => if e.2 = t then some e.1 else none)

/-- The slot a drain or send has read is cleared at the end of its cycle (R83). -/
def Bay.endRead (y : Bay) (t : Nat) : Bay :=
  match y.readIn t with
  | some n => { y with cells := clearCells n y.cells, owner := tdel y.owner n }
  | none => y

/-- One core cycle at a bay corrector: clears (Table 6.11), the additions to at most two slots, the lowest where more
are named, and the clear of the slot read (R81 to R84). -/
def applyCycle (bn t : Nat) (s : State) : State :=
  let y := s.bay bn
  let mode := s.bayMode bn
  let cs := y.cycleAdds mode t
  let cl := ((y.clears.filter (fun e => e.2 == t)).map (·.1)).filter (fun n => y.readIn t != some n)
  let slots := slotsOf cs
  let used := slots.take 2
  let adds := twoSlots cs
  let s := s.modBay bn (fun y => { y with
    beats := y.beats.map (fun e => (e.1, e.2.filter (fun b => !(b.full && b.start + applyOff mode == t))))
    contribs := y.contribs.filter (fun c => c.due != t), clears := y.clears.filter (fun e => e.2 != t)
    cells := cl.foldl (fun c n => clearCells n c) y.cells
    log := { cyc := t, pre := y.cells, adds := adds, cleared := cl }
    owner := adds.foldl (fun o c => if c.aslot = 0xFFFF then o else tset o c.slot c.aslot) (cl.foldl tdel y.owner) })
  let s := match cs with
    | c0 :: _ => if 2 < slots.length then recordErr c0.cwy (.bay (bn / 256) (bn % 256)) 0 s else s
    | [] => s
  let s := foldS used (fun s n =>
    let mine := adds.filter (fun c => c.slot == n)
    let r := addToSlot n mine (s.bay bn).cells
    countSlot mine r.2.length (s.modBay bn (fun y => { y with cells := r.1, log := { y.log with sats := y.log.sats ++ r.2 } }))) s
  s.modBay bn (fun y => y.endRead t)

/-- Cycles up to a bound in which something is due at a bay corrector, ascending. -/
def State.dues (s : State) (bn t : Nat) : List Nat :=
  let y := s.bay bn
  let ds := y.contribs.map (·.due) ++ y.clears.map (·.2) ++
    (match y.lastRead with | some (_, r) => if y.log.cyc < r then [r] else [] | none => []) ++
    y.beats.flatMap (fun e => (e.2.filter (·.full)).map (fun b => b.start + applyOff (s.bayMode bn)))
  let ds := (ds.filter (· ≤ t)).eraseDups
  ds.foldr (fun d acc => (acc.takeWhile (· < d)) ++ d :: (acc.dropWhile (· < d))) []

/-- Everything due up to a cycle is applied, cycle by cycle. -/
def settle (bn t : Nat) (s : State) : State := foldS (s.dues bn t) (fun s d => applyCycle bn d s) s

/-- Everything due before a cycle is applied. -/
def settleBefore (bn t : Nat) (s : State) : State :=
  match t with
  | 0 => s
  | k + 1 => settle bn k s

/-- A mismatch that the residue unit reports for a cell in the newest applied cycle: an error where the cell had an
addition that did not saturate (R85). -/
def Bay.mismatched (y : Bay) (t : Nat) (cells : List Nat) : Option Contrib :=
  if y.log.cyc ≠ t then none
  else (cells.filter (fun n => !y.log.sats.contains n)).findSome? (fun n => y.log.adds.find? (fun c =>
    c.slot == n / 512 && decide (c.col0 ≤ n % 512 ∧ n % 512 < c.col0 + c.vals.length)))

/-- SLOT_APPLY (R81): the additions of cycle t, after everything due before it, with the mismatches that the residue
unit reports (R85). -/
def slotApplyOp (span bay t : Nat) (mismatch : List Nat) (s : State) : State :=
  let bn := bayNo span bay
  let s := s.when (s.dieOn span) (settle bn t)
  match if s.dieOn span then (s.bay bn).mismatched t mismatch else none with
  | some c => recordErr c.cwy (.bay span bay) 0 s
  | none => s

def execSlotApply (span bay t : Nat) (mismatch : List Nat) (s : State) : Host.Outcome State Fault Refusal :=
  go s (slotApplyOp span bay t mismatch)

end Sys2Proof.Machine
end

