-- ==== Sys2Proof/Machine/Float.lean ====
section
/-! DEFINITION. Exact binary floating point: FP32 and BF16 patterns as exact rationals, rounded once to
nearest even (R39, R93, R95, R96, R99). -/

namespace Sys2Proof.Machine

/-- What an FP32 pattern stands for: NaN, an infinity, or sign, significand and exponent of two. -/
inductive Fp where
  | nan
  | inf (neg : Bool)
  | fin (neg : Bool) (mant : Nat) (exp : Int)
  deriving DecidableEq, Repr

/-- The number that a 32-bit pattern stands for. -/
def decF32 (w : Nat) : Fp :=
  let neg := fld w 31 1 == 1; let e := fld w 23 8; let m := fld w 0 23
  if e = 255 then (if m = 0 then .inf neg else .nan)
  else if e = 0 then .fin neg m (-149)
  else .fin neg (m + 2 ^ 23) ((e : Int) - 150)

/-- A BF16 pattern is the upper half of an FP32 pattern. -/
def decBf16 (w : Nat) : Fp := decF32 (w % 65536 * 65536)

/-- A non-negative rational n / d scaled by 2^e: numerator and denominator. -/
def scale (n d : Nat) (e : Int) : Nat × Nat := if 0 ≤ e then (n * 2 ^ e.toNat, d) else (n, d * 2 ^ (-e).toNat)

/-- ⌊log₂(n / d)⌋ of a positive rational. -/
def log2Floor (n d : Nat) : Int :=
  let e : Int := (Nat.log2 n : Int) - (Nat.log2 d : Int)
  let x := scale d 1 e
  if n * x.2 < x.1 then e - 1 else e

/-- n / d rounded to the nearest integer, ties to even. -/
def rneDiv (n d : Nat) : Nat :=
  let q := n / d; let r := n % d
  if 2 * r < d then q else if d < 2 * r then q + 1 else if q % 2 = 0 then q else q + 1

/-- Significand and quantum exponent of n / d rounded to nearest even with `prec` significand bits and a
least quantum exponent. -/
def rnePos (prec : Nat) (qmin : Int) (n d : Nat) : Nat × Int :=
  if n = 0 then (0, qmin)
  else
    let q := max (log2Floor n d - ((prec : Int) - 1)) qmin
    let x := scale n d (-q)
    (rneDiv x.1 x.2, q)

/-- Magnitude bits of a rounded value: an FP32 (prec 24, q_min −149) or BF16 (prec 8, q_min −133). -/
def packMag (prec : Nat) (qmin : Int) (n d : Nat) : Nat :=
  let r := rnePos prec qmin n d
  (r.2 - qmin).toNat * 2 ^ (prec - 1) + r.1

/-- The FP32 pattern of ± n / d, rounded to nearest even; a magnitude beyond the format is an infinity. -/
def toF32 (neg : Bool) (n d : Nat) : Nat := min (packMag 24 (-149) n d) 0x7F800000 + b2n neg * 2 ^ 31

/-- The exact value of a finite number as a signed numerator over a power of two denominator. -/
def Fp.rat : Fp → Int × Nat
  | .fin neg m e =>
    let x := scale m 1 e
    (if neg then -(x.1 : Int) else x.1, x.2)
  | _ => (0, 1)

def Fp.isNeg : Fp → Bool
  | .inf n => n
  | .fin n _ _ => n
  | .nan => false

def Fp.isZero : Fp → Bool
  | .fin _ m _ => m == 0
  | _ => false

/-- a + b rounded once; fv is the free value where no extended real number is the result. -/
def fpAdd (fv : Nat) (a b : Fp) : Nat :=
  match a, b with
  | .nan, _ => fv
  | _, .nan => fv
  | .inf x, .inf y => if x = y then b2n x * 2 ^ 31 + 0x7F800000 else fv
  | .inf x, _ => b2n x * 2 ^ 31 + 0x7F800000
  | _, .inf y => b2n y * 2 ^ 31 + 0x7F800000
  | x, y =>
    let p := x.rat; let q := y.rat
    let n := p.1 * (q.2 : Int) + q.1 * (p.2 : Int)
    toF32 (if n = 0 then x.isNeg && y.isNeg else decide (n < 0)) n.natAbs (p.2 * q.2)

/-- a × b exactly. -/
def fpMul (a b : Fp) : Fp :=
  match a, b with
  | .nan, _ => .nan
  | _, .nan => .nan
  | .inf x, y => if y.isZero then .nan else .inf (x != y.isNeg)
  | x, .inf y => if x.isZero then .nan else .inf (x.isNeg != y)
  | .fin s m e, .fin t n f => .fin (s != t) (m * n) (e + f)

/-- fma(a, b, c): a × b + c rounded once to FP32 (R96, R99). -/
def fma (fv : Nat) (a b c : Fp) : Nat := fpAdd fv (fpMul a b) c

/-- ⌊√n⌋, bit by bit from bit k down. -/
def isqrt (k n : Nat) : Nat :=
  match k with
  | 0 => if 1 ≤ n then 1 else 0
  | j + 1 =>
    let rec go (j n r : Nat) : Nat :=
      match j with
      | 0 => if (r + 1) * (r + 1) ≤ n then r + 1 else r
      | i + 1 => let x := r + 2 ^ (i + 1); go i n (if x * x ≤ n then x else r)
    go (j + 1) n 0

/-- 2^f for a fraction f in 64ths of bits, scaled by 2^256: the product of successive square roots of 2. -/
def exp2Frac (fuel : Nat) (f64 root acc : Nat) : Nat :=
  match fuel with
  | 0 => acc
  | k + 1 =>
    let root := isqrt 257 (root * 2 ^ 256)
    exp2Frac k f64 root (if bit f64 k then acc * root / 2 ^ 256 else acc)

/-- ex2 (R96): 2^x correctly rounded. -/
def fpEx2 (fv : Nat) (x : Fp) : Nat :=
  match x with
  | .nan => fv
  | .inf true => 0
  | .inf false => 0x7F800000
  | .fin neg m e =>
    if (m : Int) * 1 = 0 then 0x3F800000
    else if log2Floor m 1 + e < -26 then 0x3F800000
    else if 8 ≤ log2Floor m 1 + e then (if neg then 0 else 0x7F800000)
    else
      let r := (Fp.fin neg m e).rat
      let k := r.1 / (r.2 : Int)
      let f := r.1 - k * (r.2 : Int)
      let f64 := f.toNat * 2 ^ 64 / r.2
      let p := if f64 = 0 then (1, 1) else (2 * exp2Frac 64 f64 (2 ^ 257) (2 ^ 256) + 1, 2 ^ 257)
      let y := scale p.1 p.2 k
      toF32 false y.1 y.2

/-- rcp (R96): 1/x correctly rounded; the reciprocal of 0 is not stated. -/
def fpRcp (fv : Nat) (x : Fp) : Nat :=
  match x with
  | .nan => fv
  | .inf neg => b2n neg * 2 ^ 31
  | .fin neg m e =>
    if m = 0 then fv
    else let y := scale 1 m (-e); toF32 neg y.1 y.2

/-- rsq (R96): 1/√x correctly rounded; of 0 and of negative numbers it is not stated. -/
def fpRsq (fv : Nat) (x : Fp) : Nat :=
  match x with
  | .nan => fv
  | .inf neg => if neg then fv else 0
  | .fin neg m e =>
    if m = 0 ∨ neg then fv
    else
      let y := scale 1 m (-e)
      let n := y.1 * 2 ^ 256 / y.2
      let r := isqrt 260 n
      let exact := r * r * y.2 == y.1 * 2 ^ 256
      if exact then toF32 false r (2 ^ 128) else toF32 false (2 * r + 1) (2 ^ 129)

/-- Order of the numbers of R93 and R95: a < b, with +0 and −0 equal. -/
def fpLt (a b : Fp) : Bool :=
  match a, b with
  | .nan, _ => false
  | _, .nan => false
  | .inf x, .inf y => x && !y
  | .inf x, _ => x
  | _, .inf y => !y
  | x, y => decide (x.rat.1 * (y.rat.2 : Int) < y.rat.1 * (x.rat.2 : Int))

/-- ⌊a × 2^G + 1/2⌋ with its saturation, and whether it counts as an outlier clip (section 2). -/
def bfNumer (g : Nat) (a : Fp) : Int × Bool :=
  let lim : Int := 2 ^ 47 - 1
  match a with
  | .nan => (0, true)
  | .inf neg => (if neg then -lim else lim, true)
  | x =>
    let r := x.rat
    let n := (2 * r.1 * (2 ^ g : Int) + (r.2 : Int)) / (2 * (r.2 : Int))
    (clampI n (-lim) lim, decide (n < -lim ∨ lim < n))

/-- N × 2^−h as BF16 (R39), and whether it overflows: judged on the value rounded with the BF16
significand and an unbounded exponent. -/
def toBf16 (n : Int) (h : Nat) : Nat × Bool :=
  let b := packMag 8 (-133) n.natAbs (2 ^ h)
  let ovf := decide (0x7F80 ≤ b)
  (min b 0x7F7F + b2n (decide (n < 0)) * 32768, ovf)

end Sys2Proof.Machine
end

