-- ==== Sys2Proof/Machine/Slots.lean ====
section
/-! DEFINITION. Clear, drain, send and combine of accumulator slots (R83 to R88). -/

namespace Sys2Proof.Machine

def slotErr (op : Op) (bay : Nat) (s : State) : State := recordErr op.cwy (.bay op.die bay) 0 s

/-- The fields of a SLOT word: Bay, action and slot (Table 6.10). -/
def isSlot (op : Op) (bay action slot w : Nat) : Bool :=
  opNames op 4 w && fld w 84 8 == bay && fld w 82 2 == action && fld w 77 5 == slot

/-! ### Clear -/

/-- A clear whose cycle the corrector has already applied: the slot holds the additions of that cycle alone, and its
saturations are those of these additions. -/
def clearLate (bn slot : Nat) (s : State) : State :=
  let y := s.bay bn
  let mine := y.log.adds.filter (fun c => c.slot == slot)
  let old := (y.log.sats.filter (fun n => n / 512 == slot)).length
  let r := addToSlot slot mine (clearCells slot y.cells)
  let s := s.modBay bn (fun y => { y with
    cells := r.1, log := { y.log with cleared := slot :: y.log.cleared, sats := y.log.sats.filter (fun n => !(n / 512 == slot)) ++ r.2 } })
  match mine with
  | m0 :: _ => s.modRun m0.cwy (fun x => { x with
      counts := if m0.aslot = 0xFFFF then x.counts else tmod x.counts m0.aslot {} (fun k => { k with unrep := k.unrep + r.2.length - old })
      laySats := tmod x.laySats m0.layer 0 (fun k => k + r.2.length - old) })
  | [] => s

/-- SLOT clear (R83): after the additions of t − 1, before those of t; a clear that meets a drain or send of its slot
is an integrity error and takes effect after the read, which clears the slot (R84). -/
def clearRun (op : Op) (bay slot : Nat) (s : State) : State :=
  let bn := bayNo op.die bay
  let t := s.opTime op
  let s := useUntil op.cwy t s
  if (s.bay bn).readIn t == some slot then slotErr op bay s
  else if (s.bay bn).log.cyc == t then clearLate bn slot s
  else s.modBay bn (fun y => { y with clears := y.clears ++ [(slot, t)] })

def slotClearOp (op : Op) (bay slot : Nat) : State → State := issue op (isSlot op bay 0 slot) (clearRun op bay slot)

def execSlotClear (op : Op) (bay slot : Nat) (s : State) : Host.Outcome State Fault Refusal := go s (slotClearOp op bay slot)

/-! ### Drain and send -/

/-- A 3-bit field string packed from bit 0 upwards, as bytes. -/
def packRes (rs : List Nat) (n : Nat) : Bytes :=
  leBytes n (((List.range rs.length).zip rs).foldl (fun a e => a + e.2 * 2 ^ (3 * e.1)) 0)

/-- The 2,240 bytes of a partial-sum block (Table 4.5). -/
def blockBytes (cells : Tab Cell) (slot : Nat) : Bytes :=
  let xs := (List.range 512).map (fun j => tgetD cells (cellNo slot j) {})
  xs.flatMap (fun x => leBytes 4 (uint 32 x.value)) ++ packRes (xs.map (·.res)) 192

/-- The cells as they stand after every addition of cycle t, a clear of the slot in t held back (R83, R84). -/
def Bay.cellsAfter (y : Bay) (mode t slot : Nat) : Tab Cell :=
  let sum := fun (cs : List Contrib) (cells : Tab Cell) => (addToSlot slot (cs.filter (fun c => c.slot == slot)) cells).1
  if y.log.cyc = t then (if y.log.cleared.contains slot then sum y.log.adds y.log.pre else y.cells)
  else sum (twoSlots (y.cycleAdds mode t)) y.cells

/-- The admission slot that a slot serves after the additions of cycle t. -/
def Bay.ownerAfter (y : Bay) (mode t slot : Nat) : Nat :=
  (y.cycleAdds mode t).foldl (fun o c => if c.slot = slot && c.aslot != 0xFFFF then c.aslot else o) (tgetD y.owner slot 0xFFFF)

/-- The send port is busy in the cycles t0 to t0 + 34 of a drain or send issued in t0.  DESIGN CHOICE: of two issued
in one cycle the first of the stream has the port (R84 names only the cycles after t0; log 139). -/
def Bay.portBusy (y : Bay) (t : Nat) : Bool :=
  match y.sendAt with
  | some t0 => decide (t0 ≤ t ∧ t ≤ t0 + 34)
  | none => false

/-- A drain or send reads its slot: not issued while the send port is busy (R84); else the block as it stands after
every addition of cycle t, with the admission slot it serves; the slot is cleared at the end of t (R83). -/
def readSlot (op : Op) (bay slot : Nat) (s : State) : Option (Bytes × Nat) × State :=
  let bn := bayNo op.die bay
  let t := s.opTime op
  if (s.bay bn).portBusy t then (none, slotErr op bay s)
  else
    let s := settleBefore bn t s
    let y := s.bay bn
    let mode := s.bayMode bn
    let met := y.clears.contains (slot, t) || (y.log.cyc == t && y.log.cleared.contains slot)
    let s := s.modBay bn (fun y =>
      let y := { y with sendAt := some t, lastRead := some (slot, t), clears := y.clears.filter (fun e => e != (slot, t)) }
      if y.log.cyc = t then y.endRead t else y)
    (some (blockBytes (y.cellsAfter mode t slot) slot, y.ownerAfter mode t slot), if met then slotErr op bay s else s)

/-- SLOT drain (R83): the block goes to the group's Deck slice for its Girder, 4 cycles away (Table 6.12). -/
def drainRun (op : Op) (bay slot off : Nat) (s : State) : State :=
  let t := s.opTime op
  match readSlot op bay slot s with
  | (none, s) => s
  | (some b, s) =>
    useUntil op.cwy (t + 38) (fly op.cwy (streamIn (t + 4) b.1 (.deck (deckAddr op.die (bay / 4 * 32768 + off % 32768))) []) s)

def isDrain (op : Op) (bay slot off w : Nat) : Bool := isSlot op bay 1 slot w && fld w 62 15 == off
def slotDrainOp (op : Op) (bay slot off : Nat) : State → State := issue op (isDrain op bay slot off) (drainRun op bay slot off)

def execSlotDrain (op : Op) (bay slot off : Nat) (s : State) : Host.Outcome State Fault Refusal := go s (slotDrainOp op bay slot off)

/-- CRC failures that a transfer can meet: none where its route crosses no Viaduct link (R14). -/
def crossing (a b : Die) (crc : List FlitFail) : List FlitFail := if a = b then [] else crc

/-- Where a send goes: its route's latency, and the destination die. -/
def sendDie : SendDst → Die
  | .bay d _ => d
  | .sram d _ => d
def sendLat (op : Op) (bay : Nat) : SendDst → Nat
  | .bay d b => routeLat (.group op.die (bay / 4)) (.group d (b / 4))
  | .sram d _ => routeLat (.group op.die (bay / 4)) (.abut d)

/-- The 35 flits of a block on their way to a combine port from cycle t on (R87). -/
def sendFlits (t : Nat) (bs : Bytes) (aslot : Nat) (crc : List FlitFail) : List Inbound :=
  (List.range 35).map (fun f => { due := t + f, f := f, aslot := aslot, data := match crcOf crc f with | some e => slice e.2 0 64 | none => slice bs (64 * f) 64
                                  bad := (crcOf crc f).map (fun e => (.via e.1, true)) })

/-- SLOT send (R83): the block goes to Abutment SRAM, or to a Bay's combine port, where its flits arrive as
PARTIAL_SUM_FLIT_ARRIVAL. -/
def sendRun (op : Op) (bay slot : Nat) (dst : SendDst) (crc : List FlitFail) (s : State) : State :=
  let t := s.opTime op
  let lat := sendLat op bay dst
  let crc := crossing op.die (sendDie dst) crc
  match readSlot op bay slot s with
  | (none, s) => s
  | (some b, s) =>
    let s := match dst with
      | .bay d n => s.modBay (bayNo d n) (fun y => { y with inbound := y.inbound ++ sendFlits (t + lat) b.1 b.2 crc })
      | .sram d a => fly op.cwy (streamIn (t + lat) b.1 (.sram (sramAddr d a)) crc) s
    useUntil op.cwy (t + 34 + lat) s

/-- The fields of a SLOT send word. -/
def isSend (op : Op) (bay slot : Nat) (dst : SendDst) (w : Nat) : Bool :=
  isSlot op bay 2 slot w && match dst with
  | .bay d b => fld w 76 1 == 0 && fld w 73 3 == d && fld w 65 8 == b
  | .sram d a => fld w 76 1 == 1 && fld w 73 3 == d && fld w 52 21 == a

def slotSendOp (op : Op) (bay slot : Nat) (dst : SendDst) (crc : List FlitFail) : State → State :=
  issue op (isSend op bay slot dst) (sendRun op bay slot dst crc)

def execSlotSend (op : Op) (bay slot : Nat) (dst : SendDst) (crc : List FlitFail) (s : State) : Host.Outcome State Fault Refusal :=
  go s (slotSendOp op bay slot dst crc)

/-! ### Combine -/

/-- COMBINE (R87): the combine port adds the block that arrives from this cycle on into the slot. -/
def combineRun (op : Op) (bay slot : Nat) (s : State) : State :=
  let t := s.opTime op
  useUntil op.cwy (t + 36) (s.modBay (bayNo op.die bay) (fun y => { y with
    combine := some { slot := slot, start := t, cwy := op.cwy, layer := op.layer }, rxVals := [], rxErr := none }))

def isCombine (op : Op) (bay slot w : Nat) : Bool := opNames op 5 w && fld w 84 8 == bay && fld w 79 5 == slot
def combineOp (op : Op) (bay slot : Nat) : State → State := issue op (isCombine op bay slot) (combineRun op bay slot)

def execCombine (op : Op) (bay slot : Nat) (s : State) : Host.Outcome State Fault Refusal := go s (combineOp op bay slot)

/-- The 16 values of flit f of a block, as signed 32-bit integers. -/
def flitVals (data : Bytes) : List Int := (List.range 16).map (fun i => sext 32 (getLe data (4 * i) 4))

/-- A received residue that differs from the received value mod 7 in some column (R87). -/
def blockMismatch (rx : Tab Int) : Bool :=
  let bs := (List.range 192).foldl (fun a i => a + (tgetD rx (512 + i) 0).toNat * 2 ^ (8 * i)) 0
  (List.range 512).any (fun j => ((tgetD rx j 0) % 7).toNat != fld bs (3 * j) 3)

/-- The error of a complete block, recorded once: against the link on which it failed a CRC, else against the Bay
(R87).  A Pelind frame's failure was recorded against its direction when the frame arrived (R342). -/
def blockErr (k : Combine) (span bay : Nat) (s : State) : State :=
  let y := s.bay (bayNo span bay)
  match y.rxErr with
  | some (u, open_) => if open_ then recordErr k.cwy u 0 s else s
  | none => if blockMismatch y.rxVals then recordErr k.cwy (.bay span bay) 0 s else s

/-- The admission slot whose count a combine's saturations join: that of the sender's slot, else of the slot combined
into.  DESIGN CHOICE (R34, R88; log 41). -/
def Bay.combineSlot (y : Bay) (x : Inbound) (slot : Nat) : Nat := if x.aslot = 0xFFFF then tgetD y.owner slot 0xFFFF else x.aslot

/-- A flit's 16 values join the sum of the second cycle after its arrival; its residues are kept (R87). -/
def takeFlit (k : Combine) (bn t : Nat) (x : Inbound) (s : State) : State :=
  s.modBay bn (fun y =>
    let y := { y with inbound := y.inbound.erase x, rxErr := if y.rxErr.isSome then y.rxErr else x.bad }
    if x.f < 32 then
      let vs := flitVals x.data
      { y with
        rxVals := ((List.range 16).zip vs).foldl (fun a e => tset a (16 * x.f + e.1) e.2) y.rxVals
        contribs := y.contribs ++ [{ due := t + 2, col0 := 16 * x.f, slot := k.slot, aslot := y.combineSlot x k.slot
                                     cwy := k.cwy, layer := k.layer, vals := vs }] }
    else
      { y with rxVals := ((List.range 64).zip (slice x.data 0 64)).foldl (fun a e => tset a (512 + 64 * (x.f - 32) + e.1) (e.2.toNat : Int)) y.rxVals })

/-- PARTIAL_SUM_FLIT_ARRIVAL (R87): values added two cycles after arrival; with flit 34 the block is judged once.
A block that failed CRCs on several links names the link of its first failed flit: DESIGN CHOICE (log 140). -/
def flitOp (span bay t f : Nat) (s : State) : State :=
  let bn := bayNo span bay
  match (s.bay bn).combine.filter (fun _ => s.dieOn span) with
  | none => s
  | some k =>
    let s := settle bn t (land k.cwy t s)
    match (s.bay bn).inbound.find? (fun x => x.f == f && x.due == t) with
    | none => s
    | some x =>
      let s := takeFlit k bn t x s
      if f ≠ 34 then s else (blockErr k span bay s).modBay bn (fun y => { y with combine := none })

def execPartialSumFlitArrival (span bay t f : Nat) (s : State) : Host.Outcome State Fault Refusal :=
  goMem s (flitOp span bay t f)

end Sys2Proof.Machine
end

