-- ==== Sys2Proof/Machine/Girders.lean ====
section
/-! DEFINITION. The Girder units: GIRDER ops and the instructions of Table 6.13 (sections 2, 4, 6). -/

namespace Sys2Proof.Machine

/-! ### Routines -/

/-- Container offsets of the Girder images: each holds a 64-byte header, its routine table and its code,
and the next starts on the following 64-byte boundary. -/
def imagesFrom (s : State) (c fuel off stop : Nat) : List Nat :=
  match fuel with
  | 0 => []
  | k + 1 =>
    if stop < off + 64 then []
    else off :: imagesFrom s c k ((off + 64 + 8 * s.itin c (off + 2) 2 + s.itin c (off + 4) 4 + 63) / 64 * 64) stop

def State.images (s : State) (c : Nat) : List Nat :=
  imagesFrom s c (s.secLen c 6 / 64) (s.secOff c 6) (s.secOff c 6 + s.secLen c 6)

/-- The image of a Girder in the container of a Carriageway.  DESIGN CHOICE: of two for one Girder the last counts, for its
program memory as for its routine table (log 207). -/
def State.imageOf (s : State) (c span g : Nat) : Option Nat :=
  (s.images c).reverse.find? (fun o => s.itin c o 1 == span && s.itin c (o + 1) 1 == g)

/-- Declared length of a routine in core cycles.  DESIGN CHOICE: a routine that the image does not have, or of a Girder
without one, has length 0 (log 205). -/
def State.routineLen (s : State) (c span g n : Nat) : Nat :=
  match s.imageOf c span g with
  | some o => if s.itin c (o + 2) 2 ≤ n then 0 else s.itin c (o + 64 + 8 * n + 3) 3
  | none => 0

/-- END (R147): the routine stops; a cycle other than start plus declared length is an integrity error. -/
def endOp (span girder t : Nat) (s : State) : State :=
  let n := girNo span girder
  match (s.girder n).run with
  | none => s
  | some r =>
    let s := s.modGirder n (fun x => { x with run := none, loop := none })
    if t = r.start + r.len then s else recordErr r.cwy (.girder span girder) 0 s

def execEndRoutine (span girder t : Nat) (s : State) : Host.Outcome State Fault Refusal := go s (endOp span girder t)

/-! ### Registers and the arithmetic check -/

/-- Number of a vector register's lane. -/
def laneNo (r l : Nat) : Nat := 128 * (r % 64) + l
def Girder.lane (x : Girder) (r l : Nat) : Nat := tgetD x.vreg (laneNo r l) 0
def Girder.sval (x : Girder) (r : Nat) : Nat := tgetD x.sreg (r % 32) 0
/-- A predicate register; it is true until a predicate set clears it. -/
def Girder.holds (x : Girder) (p : Nat) : Bool := tgetD x.pred (p % 8) true

/-- Words stored from lane 0 of a vector register on. -/
def Girder.setWords (x : Girder) (r : Nat) (ws : List Nat) : Girder :=
  { x with vreg := ((List.range ws.length).zip ws).foldl (fun t e => tset t (laneNo (r + e.1 / 128) (e.1 % 128)) (e.2 % 2 ^ 32)) x.vreg }

/-- An instruction runs: its Girder runs a routine and its predicate register is true (R98). -/
def State.girRuns (s : State) (i : GInstr) : Bool :=
  s.dieOn i.span && (s.girder (girNo i.span i.girder)).run.isSome && (s.girder (girNo i.span i.girder)).holds i.pred

/-- The Carriageway whose routine runs. -/
def State.girCwy (s : State) (i : GInstr) : Nat :=
  match (s.girder (girNo i.span i.girder)).run with
  | some r => r.cwy
  | none => 0

/-- A result delivered: the exact words, or those of a caught unit with its integrity error (R102). -/
def deliver (i : GInstr) (u : UnitRun) (ws : List Nat) (put : Girder → List Nat → Girder) (s : State) : State :=
  let n := girNo i.span i.girder
  match u with
  | .sound => s.modGirder n (fun x => put x ws)
  | .caught d => recordErr (s.girCwy i) (.girder i.span i.girder) 0 (s.modGirder n (fun x => put x (d.take ws.length)))

/-- The free values of one instruction's lanes: the model's draw counter goes on by 128. -/
def laneFree (s : State) (bits l : Nat) : Nat := Config.freeValue (s.draws + l) % 2 ^ bits
def drew (s : State) : State := { s with draws := s.draws + 128 }

/-- A lane-wise instruction: f of the free value and of the lanes of va, vb and vd. -/
def laneOp (i : GInstr) (u : UnitRun) (f : Nat → Nat → Nat → Nat → Nat) (s : State) : State :=
  if !s.girRuns i then s
  else
    let x := s.girder (girNo i.span i.girder)
    let ws := (List.range 128).map (fun l => f (laneFree s 32 l) (x.lane i.va l) (x.lane i.vb l) (x.lane i.vd l))
    drew (deliver i u ws (fun x ws => x.setWords i.vd ws) s)

/-! ### Vector arithmetic -/

/-- VFMA.BF16 (R99): BF16 × BF16 + FP32, rounded once.  DESIGN CHOICE: a BF16 operand or result is the low half of its lane
word (Table 6.13 names none; log 186). -/
def vfmaBf16Op (i : GInstr) (u : UnitRun) (s : State) : State :=
  laneOp i u (fun fv a b d => fma fv (decBf16 a) (decBf16 b) (decF32 d)) s
def execVfmaBf16 (i : GInstr) (u : UnitRun) (s : State) : Host.Outcome State Fault Refusal := go s (vfmaBf16Op i u)

/-- VFMA.F32 (R96, R99). -/
def vfmaF32Op (i : GInstr) (u : UnitRun) (s : State) : State :=
  laneOp i u (fun fv a b d => fma fv (decF32 a) (decF32 b) (decF32 d)) s
def execVfmaF32 (i : GInstr) (u : UnitRun) (s : State) : Host.Outcome State Fault Refusal := go s (vfmaF32Op i u)

/-- The 4-element INT8 dot of two lane words plus the accumulator, exact. -/
def dot4 (a b d : Nat) : Int :=
  sext 32 d + ((List.range 4).map (fun k => sext 8 (fld a (8 * k) 8) * sext 8 (fld b (8 * k) 8))).sum

/-- Saturation of R34. -/
def sat32 (v : Int) : Int := clampI v (-2147483648) 2147483647

/-- The layer whose routine runs. -/
def State.girLayer (s : State) (i : GInstr) : Nat :=
  match (s.girder (girNo i.span i.girder)).run with
  | some r => r.layer
  | none => 255

/-- A signed result inside n bits, else the free value. -/
def inBits (n fv : Nat) (v : Int) : Nat := if -(2 ^ (n - 1) : Int) ≤ v ∧ v < (2 ^ (n - 1) : Int) then uint n v else fv

/-- VDOT.I8 (R99): each lane exact; where it serves a result of section 2, it saturates under R34 and each saturation
counts for the request and the layer; where it serves none, a sum beyond 32 bits is open. -/
def vdotOp (i : GInstr) (serves : Option Nat) (u : UnitRun) (s : State) : State :=
  if !s.girRuns i then s
  else
    match serves with
    | none => laneOp i u (fun fv a b d => inBits 32 fv (dot4 a b d)) s
    | some aslot =>
      let x := s.girder (girNo i.span i.girder)
      let n := ((List.range 128).filter (fun l =>
        let v := dot4 (x.lane i.va l) (x.lane i.vb l) (x.lane i.vd l); v != sat32 v)).length
      countSats (s.girCwy i) aslot (s.girLayer i) n (laneOp i u (fun _ a b d => uint 32 (sat32 (dot4 a b d))) s)
def execVdotI8 (i : GInstr) (serves : Option Nat) (u : UnitRun) (s : State) : Host.Outcome State Fault Refusal :=
  go s (vdotOp i serves u)

/-- One lane of VALU: add, subtract, logic, shift, compare of 32-bit integers. -/
def valuLane (f : VaOp) (fv a b : Nat) : Nat :=
  match f with
  | .add => inBits 32 fv (sext 32 a + sext 32 b)
  | .sub => inBits 32 fv (sext 32 a - sext 32 b)
  | .and => a &&& b
  | .or => a ||| b
  | .xor => a ^^^ b
  | .shl => if b < 32 then a * 2 ^ b % 2 ^ 32 else fv
  | .shr => if b < 32 then a / 2 ^ b else fv
  | .sar => if b < 32 then uint 32 (sext 32 a / (2 ^ b : Int)) else fv
  | .cmpEq => Config.cmpWord (a == b) % 2 ^ 32
  | .cmpLt => Config.cmpWord (decide (sext 32 a < sext 32 b)) % 2 ^ 32

/-- VALU (Table 6.13). -/
def valuOp (i : GInstr) (f : VaOp) (u : UnitRun) (s : State) : State := laneOp i u (fun fv a b _ => valuLane f fv a b) s
def execValu (i : GInstr) (f : VaOp) (u : UnitRun) (s : State) : Host.Outcome State Fault Refusal := go s (valuOp i f u)

/-- The larger of two floating-point patterns under R95: +0 over −0, a number over a NaN. -/
def fpMax (fv a b : Nat) (dec : Nat → Fp) : Nat :=
  match dec a, dec b with
  | .nan, .nan => fv
  | .nan, _ => b
  | _, .nan => a
  | x, y => if fpLt x y then b else if fpLt y x then a else if x.isNeg then b else a

/-- A NaN pattern of which the payload and the sign are open. -/
def nanF32 (fv : Nat) : Nat := fv % 2 ^ 22 + 0x7FC00000 + fv / 2 ^ 31 % 2 * 2 ^ 31
def nanBf16 (fv : Nat) : Nat := nanF32 fv / 65536

/-- One lane of VMAX: the greater of va and vb; the INT48 format is none of R95's and its result is open. -/
def vmaxLane (fmt : NumFmt) (fv a b : Nat) : Nat :=
  match fmt with
  | .int32 => if sext 32 a < sext 32 b then b else a
  | .int48 => fv
  | .bf16 => fpMax (nanBf16 fv) (a % 65536) (b % 65536) decBf16
  | .fp32 => fpMax (nanF32 fv) a b decF32

/-- VMAX (R95). -/
def vmaxOp (i : GInstr) (fmt : NumFmt) (u : UnitRun) (s : State) : State := laneOp i u (fun fv a b _ => vmaxLane fmt fv a b) s
def execVmax (i : GInstr) (fmt : NumFmt) (u : UnitRun) (s : State) : Host.Outcome State Fault Refusal := go s (vmaxOp i fmt u)

/-- VEX2, VRCP and VRSQ (R96) on 128 lanes of va. -/
def vex2Op (i : GInstr) (u : UnitRun) (s : State) : State := laneOp i u (fun fv a _ _ => fpEx2 fv (decF32 a)) s
def execVex2 (i : GInstr) (u : UnitRun) (s : State) : Host.Outcome State Fault Refusal := go s (vex2Op i u)
def vrcpOp (i : GInstr) (u : UnitRun) (s : State) : State := laneOp i u (fun fv a _ _ => fpRcp fv (decF32 a)) s
def execVrcp (i : GInstr) (u : UnitRun) (s : State) : Host.Outcome State Fault Refusal := go s (vrcpOp i u)
def vrsqOp (i : GInstr) (u : UnitRun) (s : State) : State := laneOp i u (fun fv a _ _ => fpRsq fv (decF32 a)) s
def execVrsq (i : GInstr) (u : UnitRun) (s : State) : Host.Outcome State Fault Refusal := go s (vrsqOp i u)

/-! ### Requantisation (R36 to R39) -/

/-- A segment meets the first, or the second, condition of R36 at shift u. -/
def fits8 (h u : Nat) (ns : List Int) : Bool := ns.all (fun n => decide (-128 ≤ rnd n (h + u) ∧ rnd n (h + u) ≤ 127))
def fits4 (h u : Nat) (ns : List Int) : Bool :=
  fits8 h u ns && decide ((ns.filter (fun n => isOutlier (rnd n (h + u)))).length ≤ 16)

/-- The segment shift (R36). -/
def segShift (h umax : Nat) (ns : List Int) : Nat :=
  match (List.range (umax + 1)).find? (fun u => fits4 h u ns) with
  | some u => u
  | none => match (List.range (umax + 1)).find? (fun u => fits8 h u ns) with
    | some u => u
    | none => umax

/-- Numerators of the 16 channels with the clips that the BF16 form adds. -/
def numers (r : ReqParams) (as : List Nat) : List (Int × Bool) :=
  match r.input with
  | .acc m b => ((List.range as.length).zip as).map (fun e => (sext 32 e.2 * m.getD e.1 0 + b.getD e.1 0, false))
  | .bf g => as.map (fun a => bfNumer g (decBf16 a))

/-- Channels in ascending order with the carry (R37): outputs, the carry out and the clips. -/
def requant (g : Nat) (c : Int) : List Int → List Int × Int × Nat
  | [] => ([], c, 0)
  | n :: r =>
    let t := n + c
    let q := rnd t g
    let o := clampI q (-128) 127
    let x := requant g (t - q * (2 ^ g : Int)) r
    (o :: x.1, x.2.1, x.2.2 + b2n (decide (o ≠ q)))

/-- VREQ (R37, R39) on 16 channels: the outputs in lanes 0 to 15 of vd, the carry kept, or passed to the
next Girder of the run (R101); clips join the request's count.  DESIGN CHOICE: the VREQ that opens an INT8S segment carries
the segment's numerators as its operand `seg`, and the shift that it finds stands in `Girder.shift` (R36; log 200). -/
def vreqOp (i : GInstr) (r : ReqParams) (u : UnitRun) (s : State) : State :=
  if !s.girRuns i then s
  else
    let n := girNo i.span i.girder
    let x := s.girder n
    let ns := numers r ((List.range 16).map (fun l => x.lane i.va l))
    let clips0 := (ns.filter (·.2)).length
    let carry := if r.first then 0 else x.carry
    let shift := match r.seg with | some (vs, umax) => segShift r.h umax vs | none => if r.first then 0 else x.shift
    let c := s.girCwy i
    let fin := fun (ws : List Nat) (carry : Int) (clips : Nat) (s : State) =>
      let s := deliver i u ws (fun x ws => x.setWords i.vd ws) s
      let s := s.modGirder n (fun x => { x with carry := carry, shift := shift })
      let s := match r.passTo with
        | some m => s.modGirder (girNo i.span m) (fun x => { x with carry := carry })
        | none => s
      if clips = 0 then s else addCount c r.slot (fun k => { k with clips := k.clips + clips }) s
    match r.target with
    | .bf16 =>
      let os := ns.map (fun e => toBf16 e.1 r.h)
      fin (os.map (·.1)) carry (clips0 + (os.filter (·.2)).length) s
    | .int8 =>
      let q := requant r.h carry (ns.map (·.1))
      fin (q.1.map (uint 32)) q.2.1 (clips0 + q.2.2) s
    | .int8s =>
      let q := requant (r.h + shift) carry (ns.map (·.1))
      fin (q.1.map (uint 32)) q.2.1 (clips0 + q.2.2) s
def execVreq (i : GInstr) (r : ReqParams) (u : UnitRun) (s : State) : Host.Outcome State Fault Refusal := go s (vreqOp i r u)

/-! ### Top-k (R92 to R94) -/

/-- Code of a key format in Table 4.6. -/
def fmtCode : NumFmt → Nat
  | .int32 => 0 | .int48 => 1 | .bf16 => 2 | .fp32 => 3

/-- The value of a key: an integer, or a floating-point number. -/
def keyFp (fmt : NumFmt) (k : Nat) : Fp :=
  match fmt with
  | .int32 | .int48 => let v := sext 64 k; .fin (decide (v < 0)) v.natAbs 0
  | .bf16 => decBf16 k
  | .fp32 => decF32 k

/-- Procedure before of R93 on (key, position). -/
def before (fmt : NumFmt) (a b : Nat × Nat) : Bool :=
  let x := keyFp fmt a.1; let y := keyFp fmt b.1
  if (x == .nan) != (y == .nan) then y == .nan
  else if x != .nan && (fpLt x y || fpLt y x) then fpLt y x
  else decide (a.2 < b.2)

/-- One entry inserted in rank order. -/
def insertEntry (fmt : NumFmt) (e : Nat × Nat) : List (Nat × Nat) → List (Nat × Nat)
  | [] => [e]
  | x :: r => if before fmt e x then e :: x :: r else x :: insertEntry fmt e r

/-- The bytes of a top-k list of k entry places (Table 4.6). -/
def listBytes (fmt : NumFmt) (k : Nat) (l : List (Nat × Nat)) : Bytes :=
  slice (leBytes 1 l.length ++ leBytes 1 (fmtCode fmt) ++ zeros 14 ++
    l.flatMap (fun e => leBytes 8 e.1 ++ leBytes 4 e.2 ++ zeros 4)) 0 (16 + 16 * k)

/-- Little-endian 32-bit words of bytes, and the bytes of words. -/
def wordsOf (bs : Bytes) : List Nat := (List.range (ceilDiv bs.length 4)).map (fun i => getLe bs (4 * i) 4)
def bytesOfWords (ws : List Nat) : Bytes := ws.flatMap (leBytes 4)

/-- The entries of a list held in vector registers from vd on. -/
def listOf (bs : Bytes) : List (Nat × Nat) :=
  (List.range (getLe bs 0 1)).map (fun e => (getLe bs (16 + 16 * e) 8, getLe bs (24 + 16 * e) 4))

/-- Key of lane l of va as Table 4.6 stores it.  DESIGN CHOICE: an INT48 key takes its upper 16 bits from the low half of the
same lane of the next register (R92; log 201). -/
def keyOf (fmt : NumFmt) (x : Girder) (va l : Nat) : Nat :=
  match fmt with
  | .int32 => uint 64 (sext 32 (x.lane va l))
  | .int48 => uint 64 (sext 48 (x.lane va l + x.lane (va + 1) l % 65536 * 2 ^ 32))
  | .bf16 => x.lane va l % 65536
  | .fp32 => x.lane va l

/-- VTOPK (R93): 16 keys of va at the positions of vb enter the list that stands in registers vd on, in
the form of Table 4.6; a NaN key that enters counts as a clip.  DESIGN CHOICE: they are lanes 0 to 15 (log 202). -/
def vtopkOp (i : GInstr) (fmt : NumFmt) (k : Nat) (fresh : Bool) (slot : Nat) (u : UnitRun) (s : State) : State :=
  if !s.girRuns i then s
  else
    let x := s.girder (girNo i.span i.girder)
    let k := clampN k 1 64
    let old := if fresh then [] else listOf (bytesOfWords ((List.range (4 + 4 * k)).map (fun w => x.lane (i.vd + w / 128) (w % 128))))
    let new := (List.range 16).map (fun l => (keyOf fmt x i.va l, x.lane i.vb l))
    let nan := (new.filter (fun e => keyFp fmt e.1 == .nan)).length
    let l := (new.foldl (fun a e => insertEntry fmt e a) old).take k
    let s' := deliver i u (wordsOf (listBytes fmt k l)) (fun x ws => x.setWords i.vd ws) s
    if nan = 0 then s' else addCount (s.girCwy i) slot (fun c => { c with clips := c.clips + nan }) s'
def execVtopk (i : GInstr) (fmt : NumFmt) (k : Nat) (fresh : Bool) (slot : Nat) (u : UnitRun) (s : State) :
    Host.Outcome State Fault Refusal := go s (vtopkOp i fmt k fresh slot u)

/-! ### Deck accesses (R98) -/

/-- A unit of a Girder's own Deck slice, as a byte address. -/
def sliceAddr (span g u : Nat) : Nat := deckAddr span (g * 32768 + u % 32768)

/-- 512 bytes of a group's slice, as it stands in cycle t, into vd. -/
def loadFrom (i : GInstr) (grp off t : Nat) (s : State) : State :=
  if !s.girRuns i then s
  else
    let ws := wordsOf ((s.seen (s.girCwy i) t).deckRead (s.girCwy i) (sliceAddr i.span grp off) 512)
    s.modGirder (girNo i.span i.girder) (fun x => x.setWords i.vd ws)

/-- VLD: from the Girder's own slice, issued in cycle t. -/
def execVld (i : GInstr) (off t : Nat) (s : State) : Host.Outcome State Fault Refusal := go s (loadFrom i i.girder off t)

/-- VRLD: from another slice of the Span, over the route of Table 4.4. -/
def execVrld (i : GInstr) (grp off t : Nat) (s : State) : Host.Outcome State Fault Refusal :=
  go s (loadFrom i grp off (t + groupLat i.span i.girder i.span grp))

/-- VST: the 128 lane words of va to the own slice, 6 cycles later (R98). -/
def vstOp (i : GInstr) (off t : Nat) (s : State) : State :=
  if !s.girRuns i then s
  else
    let x := s.girder (girNo i.span i.girder)
    fly (s.girCwy i) (blockIn (t + 6) (bytesOfWords ((List.range 128).map (x.lane i.va))) (.deck (sliceAddr i.span i.girder off))) s
def execVst (i : GInstr) (off t : Nat) (s : State) : Host.Outcome State Fault Refusal := go s (vstOp i off t)

/-! ### Merges and wide segments (R94, R97, R100) -/

/-- An attention partial: m, l and o[0] to o[127], FP32 patterns (section 4, Log-sum-exp merge). -/
structure Partial where
  m : Nat
  l : Nat
  o : List Nat
  deriving DecidableEq, Repr

/-- −∞ of FP32. -/
def negInf : Nat := 0xFF800000

/-- fp32 of a difference and of a product, and fma, on patterns (R96). -/
def subF32 (fv a b : Nat) : Nat := fpAdd fv (decF32 a) (decF32 (b ^^^ 2 ^ 31))
def mulF32 (fv a b : Nat) : Nat := fma fv (decF32 a) (decF32 b) (.fin ((decF32 a).isNeg != (decF32 b).isNeg) 0 0)
def fmaF32 (fv a b c : Nat) : Nat := fma fv (decF32 a) (decF32 b) (decF32 c)

/-- Procedure lse_merge; fv gives the values that R96 does not state. -/
def lseMerge (fv : Nat → Nat) (a b : Partial) : Partial :=
  if a.m = negInf then b
  else if b.m = negInf then a
  else
    let m := fpMax (nanF32 (fv 128)) a.m b.m decF32
    let alpha := fpEx2 (fv 129) (decF32 (subF32 (fv 129) a.m m))
    let beta := fpEx2 (fv 130) (decF32 (subF32 (fv 130) b.m m))
    { m := m, l := fmaF32 (fv 131) b.l beta (mulF32 (fv 131) a.l alpha)
      o := (List.range 128).map (fun i => fmaF32 (fv i) (b.o.getD i 0) beta (mulF32 (fv i) (a.o.getD i 0) alpha)) }

/-- One round of lse_tree: neighbours merge, an odd last partial stands. -/
def lseRound (fv : Nat → Nat) : List Partial → List Partial
  | a :: b :: r => lseMerge fv a b :: lseRound (fun i => fv (i + 132)) r
  | l => l

/-- Procedure lse_tree over the partials in combine-list order: rounds until one stands (R97). -/
def lseTree (fv : Nat → Nat) (fuel : Nat) (ps : List Partial) : Partial :=
  match fuel, ps with
  | _, [] => { m := negInf, l := 0, o := List.replicate 128 0 }
  | _, [p] => p
  | 0, p :: _ => p
  | k + 1, ps => lseTree (fun i => fv (i + 132 * ps.length)) k (lseRound fv ps)

/-- Procedure lse_finish. -/
def lseFinish (fv : Nat → Nat) (r : Partial) : List Nat :=
  if r.m = negInf then List.replicate 128 0
  else
    let z := fpRcp (fv 0) (decF32 r.l)
    r.o.map (fun x => mulF32 (fv 1) x z)

/-- A partial in a Deck slice: m, l and o, 4 bytes each, 9 units.  DESIGN CHOICE: the spec gives the partial no
layout (log 141). -/
def State.partialAt (s : State) (c a : Nat) : Partial :=
  let b := s.deckRead c a 520
  { m := getLe b 0 4, l := getLe b 4 4, o := (List.range 128).map (fun i => getLe b (8 + 4 * i) 4) }

/-- Values kept to 32 bits with their residues, as a partial-sum block (Table 4.5), and how many saturate. -/
def valueBlock (vs : List Int) : Bytes × Nat :=
  let ws := vs.map sat32
  (ws.flatMap (fun v => leBytes 4 (uint 32 v)) ++ packRes (ws.map (fun v => (v % 7).toNat)) 192, (vs.filter (fun v => v != sat32 v)).length)

/-- The first n bytes of a Pier image hold its 512 × 512 weights (Table 9.1, R100). -/
def weightLen : Nat := 131072

/-- What a routine delivers: its result, or what a caught unit delivers in place of as many bytes (R102). -/
def delivered (f : GirFail) (bs : Bytes) : Bytes :=
  match f.check with
  | some d => slice d 0 bs.length
  | none => bs

/-- What a routine reads is read as it stands in its first cycle, as the state v shows it, and its result stands in the Deck slice in its
last cycle e.  DESIGN CHOICE: the spec fixes the routine's length alone (log 141); a NaN key that an earlier part of a top-k
list holds has counted as a clip at its insertion, and merging lists counts none again (R93; log 187).  A failed residue,
comparison or list recheck is an integrity error, and the bytes delivered stand (R102); a wide routine's stream of weights
meets the errors of an HBM read and of a Viaduct transfer (R14, R100, R234). -/
def kernelRun (op : Op) (g e : Nat) (v : State) (k : Kernel) (f : GirFail) (s : State) : State :=
  let put := fun (out : Nat) (bs : Bytes) (s : State) =>
    fly op.cwy (blockIn e (delivered f bs) (.deck (sliceAddr op.die g out))) s
  let s := s.when f.check.isSome (recordErr op.cwy (.girder op.die g) 0)
  match k with
  | .other => s
  | .lse parts out =>
    let fv := fun i => Config.freeValue (s.draws + i) % 2 ^ 32
    let r := lseTree fv parts.length (parts.map (fun u => v.partialAt op.cwy (sliceAddr op.die g u)))
    put out (bytesOfWords (lseFinish (fun i => fv (396 * parts.length + i)) r)) { s with draws := s.draws + 396 * parts.length + 2 }
  | .topk fmt k parts out =>
    let k := clampN k 1 64
    let l := (parts.flatMap (fun u => listOf (v.deckRead op.cwy (sliceAddr op.die g u) (16 + 16 * 64)))).foldl (fun a e => insertEntry fmt e a) []
    put out (listBytes fmt k (l.take k)) s
  | .wide bay pier rec out =>
    match s.shadow (bayNo op.die bay) pier with
    | none => s
    | some (_, _, a) =>
      let r := v.segRecord op.cwy op.die bay rec
      let crc := f.read.crc.filter (fun x => decide (64 * x.flit < weightLen))
      let ecc := f.read.ecc.filter (fun x => decide (64 * x.1 < weightLen))
      let at_ := fun n => some (a + 64 * n)
      let b := valueBlock (wideVals (patch (memSlice (v.asRead ecc at_).hbm a imageLen) crc) r)
      let s := foldS crc (fun s x => recordErr op.cwy (.via x.link) 0 s) s
      let s := hbmErrors op.cwy (dieScope op.die) ecc at_ s
      countClips op.cwy (getLe r 514 2) op.layer (((segOf r).filter isOutlier).length - 16)
        (countSats op.cwy (getLe r 514 2) op.layer b.2 (put out b.1 (hbmSnoop a imageLen s)))

/-! ### GIRDER -/

/-- GIRDER (R147): the routine starts two cycles later with its arguments in scalar registers 1 and 2; an op to a
busy Girder is not issued and is an integrity error naming it.  Corrected errors of Girder storage are counted, an
uncorrectable one is an integrity error (R103).  What the routine computes as a whole stands in the Girder's Deck
slice when its declared length has passed. -/
def girderRun (op : Op) (g routine a0 a1 : Nat) (k : Kernel) (fixed : Nat) (fail : GirFail) (s : State) : State :=
  let n := girNo op.die g
  if (s.girder n).run.isSome then recordErr op.cwy (.girder op.die g) 0 s
  else
    let t := s.opTime op + 2
    let v := s.seen op.cwy t
    let len := s.routineLen op.cwy op.die g routine
    let s := s.modGirder n (fun x => { x with
      run := some { cwy := op.cwy, layer := op.layer, start := t, len := len }, sreg := tset (tset x.sreg 1 a0) 2 a1, loop := none
      fixed := x.fixed + fixed })
    let s := s.when fail.ecc (recordErr op.cwy (.girder op.die g) 0)
    useUntil op.cwy (t + len) (kernelRun op g (t + len) v k fail s)

/-- The fields of a GIRDER word (Table 6.10). -/
def isGirder (op : Op) (g routine a0 a1 w : Nat) : Bool :=
  opNames op 6 w && fld w 86 6 == g && fld w 76 10 == routine && fld w 44 32 == a0 && fld w 12 32 == a1

def girderOp (op : Op) (g routine a0 a1 : Nat) (k : Kernel) (fixed : Nat) (fail : GirFail) : State → State :=
  issue op (isGirder op g routine a0 a1) (girderRun op g routine a0 a1 k fixed fail)

def execGirder (op : Op) (g routine arg0 arg1 : Nat) (k : Kernel) (fixed : Nat) (fail : GirFail) (s : State) :
    Host.Outcome State Fault Refusal := go s (girderOp op g routine arg0 arg1 k fixed fail)

/-! ### Scalar core -/

/-- The word that SALU writes into vd; none for a predicate set. -/
def saluWord (f : SaOp) (fv a b : Nat) : Option Nat :=
  match f with
  | .add => some (inBits 64 fv (sext 64 a + sext 64 b))
  | .sub => some (inBits 64 fv (sext 64 a - sext 64 b))
  | .and => some (a &&& b)
  | .or => some (a ||| b)
  | .xor => some (a ^^^ b)
  | .cmpEq => some (Config.cmpWord (a == b))
  | .cmpLt => some (Config.cmpWord (decide (sext 64 a < sext 64 b)))
  | .setPred _ => none

/-- SALU (Table 6.13): a predicate set takes its truth from a compare's result in va. -/
def saluOp (i : GInstr) (f : SaOp) (u : UnitRun) (s : State) : State :=
  if !s.girRuns i then s
  else
    let x := s.girder (girNo i.span i.girder)
    match f with
    | .setPred p =>
      deliver i u [x.sval i.va] (fun y ws => { y with pred := tset y.pred (p % 8) (ws.headD 0 == Config.cmpWord true % 2 ^ 64) }) s
    | _ =>
      let w := (saluWord f (laneFree s 64 0) (x.sval i.va) (x.sval i.vb)).getD 0
      drew (deliver i u [w] (fun x ws => { x with sreg := tset x.sreg (i.vd % 32) (ws.headD 0 % 2 ^ 64) }) s)
def execSalu (i : GInstr) (f : SaOp) (u : UnitRun) (s : State) : Host.Outcome State Fault Refusal := go s (saluOp i f u)

/-- SMUL: the signed product; a product beyond 64 bits is open. -/
def smulOp (i : GInstr) (u : UnitRun) (s : State) : State :=
  if !s.girRuns i then s
  else
    let x := s.girder (girNo i.span i.girder)
    let w := inBits 64 (laneFree s 64 0) (sext 64 (x.sval i.va) * sext 64 (x.sval i.vb))
    drew (deliver i u [w] (fun x ws => { x with sreg := tset x.sreg (i.vd % 32) (ws.headD 0 % 2 ^ 64) }) s)
def execSmul (i : GInstr) (u : UnitRun) (s : State) : Host.Outcome State Fault Refusal := go s (smulOp i u)

/-- LOOP: the next words repeat a fixed number of times. -/
def loopOp (i : GInstr) (words times : Nat) (s : State) : State :=
  if !s.girRuns i then s else s.modGirder (girNo i.span i.girder) (fun x => { x with loop := some (words, times) })
def execLoop (i : GInstr) (words times : Nat) (s : State) : Host.Outcome State Fault Refusal := go s (loopOp i words times)

end Sys2Proof.Machine
end

