-- ==== Sys2Proof/Machine/Moves.lean ====
section
/-! DEFINITION. Transfer ops, wait points and stream fetches (R108, R113, R116, R139 to R145, R182 to R194,
R226, R328). -/

namespace Sys2Proof.Machine

/-! ### MOVE -/

/-- The place, the stop of the route, and the fields (die, space, address) of an endpoint (Tables 6.10, 6.12). -/
def endLoc : Endpoint → Loc
  | .deck die a => .deck (deckAddr die a)
  | .sram die a => .sram (sramAddr die a)
  | .combine die bay => .port (bayNo die bay) 0
def endStop : Endpoint → Stop
  | .deck die a => .group die (a / 32768 % 64)
  | .sram die _ => .abut die
  | .combine die bay => .group die (bay / 4)
def endFields : Endpoint → Nat × Nat × Nat
  | .deck die a => (die, 0, a)
  | .sram die a => (die, 1, a)
  | .combine die bay => (die, 2, bay)

/-- Flit k leaves at t + k and arrives after the route's latency (Table 6.11); a flit whose CRC fails is delivered as
it arrives, and recorded (R14). -/
def moveRun (op : Op) (src dst : Endpoint) (flits : Nat) (crc : List FlitFail) (s : State) : State :=
  let t := s.opTime op
  let lat := routeLat (endStop src) (endStop dst)
  let crc := crossing (endFields src).1 (endFields dst).1 crc
  useUntil op.cwy (t + flits - 1 + lat) (fly op.cwy (streamOut t lat flits (endLoc src) (endLoc dst) crc) s)

/-- The fields of a MOVE word. -/
def isMove (op : Op) (src dst : Endpoint) (flits w : Nat) : Bool :=
  opNames op 7 w && (fld w 89 3, fld w 87 2, fld w 66 21) == endFields src && (fld w 63 3, fld w 61 2, fld w 40 21) == endFields dst &&
    fld w 28 12 == flits

/-- MOVE (R141). -/
def moveOp (op : Op) (src dst : Endpoint) (flits : Nat) (crc : List FlitFail) : State → State :=
  issue op (isMove op src dst flits) (moveRun op src dst flits crc)

def execMove (op : Op) (src dst : Endpoint) (flits : Nat) (crc : List FlitFail) (s : State) : Host.Outcome State Fault Refusal :=
  go s (moveOp op src dst flits crc)

/-! ### HBM_RD and HBM_WR -/

/-- Offset of the Spandrel window (R226). -/
def spanWindow : Nat := 2 ^ 38

/-- The request placed in an admission slot of the running step. -/
def State.admReq (s : State) (c aslot : Nat) : Option (Nat × Req) :=
  match (s.cwy c).run.adm.find? (fun a => a.slot == aslot) with
  | some a => (s.req a.handle).map (fun q => (a.handle, q))
  | none => none

/-- HBM address of byte x of the Spandrel window; none where it reads zero (R226). -/
def State.spanAddr (s : State) (c x : Nat) : Option Nat :=
  let sl := 64 * s.slotLenU c
  if sl = 0 then none
  else match (s.cwy c).run.adm.find? (fun a => a.slot == x / sl) with
    | some a => match a.spandrel with
      | some n => if x % sl < 64 * (s.sp n).lenU then some ((s.sp n).base + x % sl) else none
      | none => none
    | none => none

/-- Byte x of the Spandrel window (R226). -/
def State.spanByte (s : State) (c x : Nat) : Byte :=
  match s.spanAddr c x with
  | some a => memRead s.hbm a
  | none => 0

/-- Flits of an access that lie below the Spandrel window. -/
def belowWindow (hoff flits : Nat) : Nat := min flits (spanWindow / 64 - hoff)

/-- HBM address that a carve-out unit reads; none in the part of the Spandrel window that reads zero. -/
def State.unitAddr (s : State) (c u : Nat) : Option Nat :=
  if spanWindow ≤ 64 * u then s.spanAddr c (64 * u - spanWindow) else some (s.carveBase c + 64 * s.bankUnit c 1 u)

/-- Host lines over the units of an access are snooped (R360). -/
def snoopUnits (c hoff flits : Nat) (s : State) : State :=
  foldS ((List.range flits).filterMap (fun k => s.unitAddr c (hoff + k))) (fun s a => hbmSnoop a 64 s) s

/-- The 64 bytes at a carve-out unit: the carve-out, or the Spandrel window from 256 GiB on. -/
def State.hbmUnit (s : State) (c u : Nat) : Bytes :=
  if spanWindow ≤ 64 * u then (List.range 64).map (fun i => s.spanByte c (64 * u - spanWindow + i))
  else memBytes s.hbm (s.carveBase c + 64 * s.bankUnit c 1 u) 64

/-- The bytes of an HBM_RD. -/
def State.hbmRdBytes (s : State) (c hoff flits : Nat) : Bytes := (List.range flits).flatMap (fun k => s.hbmUnit c (hoff + k))

/-- HBM read at the issue; flit k reaches the local memory at t + 768 + k (Table 6.11). -/
def hbmRdRun (op : Op) (hoff laddr flits : Nat) (ecc : List (Nat × Bool)) (crc : List FlitFail) (s : State) : State :=
  let c := op.cwy
  let t := s.opTime op
  let s := snoopUnits c hoff flits s
  let at_ := fun k => s.unitAddr c (hoff + k)
  let bs := ((s.seen c t).asRead ecc at_).hbmRdBytes c hoff flits
  let s := fly c (s.withOwed at_ (streamIn (t + 768) bs (localLoc op.die laddr) crc)) s
  useUntil c (t + 767 + flits) (hbmErrors c (dieScope op.die) ecc at_ s)

/-- The fields of an HBM_RD or HBM_WR word. -/
def isHbm (op : Op) (cls hoff laddr flits w : Nat) : Bool :=
  opNames op cls w && fld w 59 33 == hoff && fld w 38 21 == laddr && fld w 26 12 == flits

/-- An HBM access of an op that issues lies outside the 384 GiB that exist (R11). -/
def State.hbmMissing (s : State) (op : Op) (cls hoff laddr flits : Nat) : Bool :=
  !s.host.perst && s.issues op (isHbm op cls hoff laddr flits) && decide (0 < belowWindow hoff flits) &&
    (List.range (belowWindow hoff flits)).any (fun k => !hbmIn (s.carveBase op.cwy + 64 * s.bankUnit op.cwy 1 (hoff + k)) 64)

/-- HBM_RD (R108, R226, R234): at an address that does not exist the model stops. -/
def hbmRdOp (op : Op) (hoff laddr flits : Nat) (ecc : List (Nat × Bool)) (crc : List FlitFail) : State → State :=
  issue op (isHbm op 8 hoff laddr flits) (hbmRdRun op hoff laddr flits ecc crc)
def execHbmRd (op : Op) (hoff laddr flits : Nat) (ecc : List (Nat × Bool)) (crc : List FlitFail) (s : State) :
    Host.Outcome State Fault Refusal :=
  if s.hbmMissing op 8 hoff laddr flits then .fault (.hbmOutOfRange (s.carveBase op.cwy + 64 * hoff))
  else go s (hbmRdOp op hoff laddr flits ecc crc)

/-- Flit k leaves the local memory at t + k, and all are visible 768 cycles after the last (Table 6.11); a flit into
the Spandrel window crosses the Viaduct and writes nothing (R14, R226). -/
def hbmWrRun (op : Op) (hoff laddr flits : Nat) (crc : List FlitFail) (s : State) : State :=
  let c := op.cwy
  let t := s.opTime op
  let vis := t + flits - 1 + 768
  let base := s.carveBase c + 64 * hoff
  let fs := (streamOut t 0 flits (localLoc op.die laddr) (.hbm base) crc).map (fun x => { x with lat := vis - x.cyc })
  useUntil c vis (fly c (fs.take (belowWindow hoff flits) ++ (fs.drop (belowWindow hoff flits)).map (fun x => { x with dst := .sink })) s)

/-- HBM_WR (R108). -/
def hbmWrOp (op : Op) (hoff laddr flits : Nat) (crc : List FlitFail) : State → State :=
  issue op (isHbm op 9 hoff laddr flits) (hbmWrRun op hoff laddr flits crc)
def execHbmWr (op : Op) (hoff laddr flits : Nat) (crc : List FlitFail) (s : State) : Host.Outcome State Fault Refusal :=
  if s.hbmMissing op 9 hoff laddr flits then .fault (.hbmOutOfRange (s.carveBase op.cwy + 64 * hoff))
  else go s (hbmWrOp op hoff laddr flits crc)

/-! ### Key-value ops -/

/-- Block number of a layer and head within a frame (R182): none where the op names no KV layer or head (R184). -/
def State.kvBlock (s : State) (c layer head : Nat) : Option Nat :=
  if s.kvFirst c ≤ layer ∧ layer < s.kvFirst c + s.kvLayers c ∧ head < s.kvHeads c then
    some ((layer - s.kvFirst c) * s.kvHeads c + head)
  else none

/-- The newest open block whose mask covers a position of a block of a request's page, if there is one. -/
def State.openOf (s : State) (c h page blk t : Nat) : Option OpenBlk :=
  (s.cwy c).kv.open_.reverse.find? (fun o => o.handle == h && o.page == page && o.blk == blk && bit o.mask t)

/-- The 256 bytes of one position: the open block where its mask covers it, otherwise the frame; zero at
or beyond the committed length and where the page is not held (R194). -/
def State.kvEntry (s : State) (c h : Nat) (q : Req) (blk pos : Nat) : Bytes :=
  let page := pos / 16; let t := pos % 16
  if q.len ≤ pos || !s.holds c page then zeros 256
  else match s.pageFrame c q page with
    | none => zeros 256
    | some f =>
      match s.openOf c h page blk t with
      | some o => memBytes o.data (256 * t) 256
      | none => memBytes s.hbm (s.frameAddr c f blk + 256 * t) 256

/-- The 4,096 bytes of one page of one head. -/
def State.kvPage (s : State) (c aslot layer head page : Nat) : Bytes :=
  match s.admReq c aslot, s.kvBlock c layer head with
  | some (h, q), some blk => (List.range 16).flatMap (fun t => s.kvEntry c h q blk (16 * page + t))
  | _, _ => zeros 4096

/-- HBM address of a flit of a page that a KV_RD reads from the frame; none where no HBM is read. -/
def State.kvFlit (s : State) (c aslot layer head page f : Nat) : Option Nat :=
  match s.admReq c aslot, s.kvBlock c layer head with
  | some (h, q), some blk =>
    if q.len ≤ 16 * page + f / 4 || !s.holds c page || (s.openOf c h page blk (f / 4)).isSome then none else (s.pageFrame c q page).map (fun fr => s.frameAddr c fr blk + 64 * f)
  | _, _ => none

/-- KV_RD (R194): 64 flits for each page, flit k at t + 768 + k. -/
def kvRdRun (op : Op) (aslot page pages head laddr : Nat) (ecc : List (Nat × Bool)) (crc : List FlitFail) (s : State) : State :=
  let c := op.cwy
  let t := s.opTime op
  let at_ := fun k => s.kvFlit c aslot op.layer head (page + k / 64) (k % 64)
  let v := (s.seen c t).asRead ecc at_
  let bs := (List.range pages).flatMap (fun k => v.kvPage c aslot op.layer head (page + k))
  let s := foldS ((List.range (64 * pages)).filterMap at_) (fun s a => hbmSnoop a 64 s) s
  let s := fly c (s.withOwed at_ (streamIn (t + 768) bs (localLoc op.die laddr) crc)) s
  useUntil c (t + 767 + 64 * pages) (hbmErrors c (dieScope op.die) ecc at_ s)

def isKvRd (op : Op) (aslot page pages head laddr w : Nat) : Bool :=
  opNames op 10 w && fld w 82 10 == aslot && fld w 62 20 == page && fld w 54 8 == pages && fld w 51 3 == head && fld w 30 21 == laddr

def kvRdOp (op : Op) (aslot page pages head laddr : Nat) (ecc : List (Nat × Bool)) (crc : List FlitFail) : State → State :=
  issue op (isKvRd op aslot page pages head laddr) (kvRdRun op aslot page pages head laddr ecc crc)

def execKvRd (op : Op) (aslot page pages head laddr : Nat) (ecc : List (Nat × Bool)) (crc : List FlitFail) (s : State) :
    Host.Outcome State Fault Refusal := go s (kvRdOp op aslot page pages head laddr ecc crc)

/-- KV_STAGE (R191): kept when the slot admits the token, the layer and head exist and the member holds the page;
otherwise discarded after their way (R14, R145, R184).  Its 4 flits are in the staging buffer at t + 40 to t + 43. -/
def kvStageRun (op : Op) (aslot tok head laddr : Nat) (crc : List FlitFail) (s : State) : State :=
  let c := op.cwy
  let t := s.opTime op
  let keep := match (s.cwy c).run.adm.find? (fun a => a.slot == aslot) with
    | none => false
    | some a => decide (tok < a.tokens) && (s.kvBlock c op.layer head).isSome && s.holds c ((a.first + tok) / 16)
  useUntil c (t + 43)
    (fly c (streamOut t 40 4 (localLoc op.die laddr) (if keep then .stage aslot tok op.layer head 0 else .sink) crc) s)

def isKvStage (op : Op) (aslot tok head laddr w : Nat) : Bool :=
  opNames op 11 w && fld w 82 10 == aslot && fld w 74 8 == tok && fld w 71 3 == head && fld w 50 21 == laddr

def kvStageOp (op : Op) (aslot tok head laddr : Nat) (crc : List FlitFail) : State → State :=
  issue op (isKvStage op aslot tok head laddr) (kvStageRun op aslot tok head laddr crc)

def execKvStage (op : Op) (aslot tok head laddr : Nat) (crc : List FlitFail) (s : State) : Host.Outcome State Fault Refusal :=
  go s (kvStageOp op aslot tok head laddr crc)

/-! ### PL_SEND -/

/-- PL_SEND (R328): the transfer queues on the port on which its direction leaves; flit k leaves the SRAM at t + k. -/
def plSendRun (op : Op) (dir dmember rxbuf tag saddr flits : Nat) (s : State) : State :=
  let t := s.opTime op
  let x : Xfer := { cwy := op.cwy, dir := dir, dmember := dmember, rxbuf := rxbuf, tag := tag, addr := saddr, flits := flits
                    die := op.die }
  let s := match s.outPort op.cwy dir with
    | some p => s.modPort p (fun y => { y with xfers := y.xfers ++ [x] })
    | none => s
  useUntil op.cwy (t + flits - 1)
    (launch op.cwy (streamOut t 0 flits (.sram (sramAddr op.die saddr)) (.link dir dmember rxbuf tag 0) []) s)

def isPlSend (op : Op) (dir dmember rxbuf tag saddr flits w : Nat) : Bool :=
  opNames op 12 w && fld w 89 3 == dir && fld w 74 15 == dmember && fld w 66 8 == rxbuf && fld w 50 16 == tag &&
    fld w 29 21 == saddr && fld w 17 12 == flits

def plSendOp (op : Op) (dir dmember rxbuf tag saddr flits : Nat) : State → State :=
  issue op (isPlSend op dir dmember rxbuf tag saddr flits) (plSendRun op dir dmember rxbuf tag saddr flits)

def execPlSend (op : Op) (dir dmember rxbuf tag saddr flits : Nat) (s : State) : Host.Outcome State Fault Refusal :=
  go s (plSendOp op dir dmember rxbuf tag saddr flits)

/-! ### Wait points -/

/-- The fields of a WAIT word: the arrivals it names. -/
def waitNames (w : Nat) : List Arrival :=
  (List.range (fld w 90 2)).map (fun k => { rxbuf := fld w (82 - 24 * k) 8, tag := fld w (66 - 24 * k) 16 })

/-- The arrivals of a wait point: the union of those that the WAIT ops of its cycle name on all eight dies (R146). -/
def State.waitPoint (s : State) (c cyc : Nat) : List Arrival :=
  ((List.range 8).flatMap (fun d => ((s.stream c (s.cwy c).run.shape d).filter (fun w => opClass w == 13 && opCycle w == cyc &&
    s.predTrue { cwy := c, die := d, cyc := cyc, pred := opPred w, layer := opLayer w })).flatMap waitNames)).eraseDups

/-- WAIT (R113, R146): passes when every arrival of its wait point, on whichever die named, is complete 8 cycles before
the placed cycle; otherwise every stream of the Carriageway stalls, and the Bays that run when it stalls stay running
(R129). -/
def waitRun (op : Op) (arrivals : List Arrival) (s : State) : State :=
  let c := op.cwy
  let t := s.opTime op
  let all := (arrivals ++ s.waitPoint c op.cyc).eraseDups
  if (s.cwy c).run.wait.isSome || all.all (fun a => match s.arrived c a with | some x => decide (x + 8 ≤ t) | none => false) then s
  else s.modCwy c (fun x => { x with warm := s.keptWarm c t, run := { x.run with wait := some (op.cyc, all) } })

def isWait (op : Op) (arrivals : List Arrival) (w : Nat) : Bool := opNames op 13 w && waitNames w == arrivals
def waitOp (op : Op) (arrivals : List Arrival) : State → State := issue op (isWait op arrivals) (waitRun op arrivals)

def execWait (op : Op) (arrivals : List Arrival) (s : State) : Host.Outcome State Fault Refusal := go s (waitOp op arrivals)

/-- WAIT_RELEASE (R113): the streams resume at the first cycle at least 8 after the last arrival, in the mask phase
of the placed cycle. -/
def waitReleaseOp (c : Nat) (s : State) : State :=
  let r := (s.cwy c).run
  match r.wait with
  | none => s
  | some (w, l) =>
    let placed := r.start + r.stall + w
    match s.resumeAt c placed l with
    | none => s
    | some t => s.modRun c (fun r => { r with wait := none, stall := r.stall + (t - placed) })

def execWaitRelease (c : Nat) (s : State) : Host.Outcome State Fault Refusal := go s (waitReleaseOp c)

/-- WAIT_LIMIT_EXPIRY (R116): a link error naming the late direction; the streams leave the body. -/
def waitLimitOp (c dir : Nat) (s : State) : State :=
  match (s.cwy c).run.wait with
  | none => s
  | some _ =>
    let s := recordErr c (.dir ((s.portOf dir).getD dir)) 0 s
    s.modRun c (fun r => { r with wait := none, leaving := true })

def execWaitLimitExpiry (c dir : Nat) (s : State) : Host.Outcome State Fault Refusal := go s (waitLimitOp c dir)

/-! ### Stream fetches -/

/-- Op words of one 4 KiB block of a die's stream in the shape that runs or starts next. -/
def State.blockWords (s : State) (c : Nat) (die : Die) (block : Nat) : List Nat :=
  ((s.stream c (s.cwy c).run.shape die).drop (256 * block)).take 256

/-- A die's stream stands before a body cycle's ops: it has issued every op of an earlier cycle, and no die has issued one
of a later cycle (R141). -/
def State.streamAt (s : State) (c : Nat) (die : Die) (cyc : Nat) : Bool :=
  let r := (s.cwy c).run
  r.inBody && !r.leaving && decide (r.now ≤ cyc) &&
    (((s.stream c r.shape die)[tgetD r.pos die 0]?).all (fun w => decide (cyc ≤ opCycle w)))

/-- A block is read at body cycle c_b − 4,096, where its first op issues in cycle c_b, and during the Keystone before the
body where that cycle would fall before 0 (R139). -/
def State.fetchDue (s : State) (c : Nat) (die : Die) (block : Nat) : Bool :=
  match s.blockWords c die block with
  | [] => false
  | w :: _ => if opCycle w < 4096 then (s.cwy c).key.ready else s.streamAt c die (opCycle w - 4096)

/-- Op words with the flits whose CRC failed as they arrived: four words in each. -/
def patchWords (ws : List Nat) (crc : List FlitFail) : List Nat :=
  (List.range ws.length).map (fun k => match crcOf crc (k / 4) with
    | some e => getLe e.2 (16 * (k % 4)) 16
    | none => ws.getD k 0)

/-- STREAM_FETCH (R139, R140): a block enters the die's op buffer of 64 KiB; an uncorrectable error stops the die, and a
flit whose CRC fails is delivered as it arrived and recorded (R14).  DESIGN CHOICE: a 17th block takes the place of the one
fetched longest ago (log 203). -/
def streamFetchOp (c : Nat) (die : Die) (block : Nat) (fail : ReadFail) (s : State) : State :=
  if !s.fetchDue c die block then s
  else
    let ws := s.blockWords c die block
    let at_ := s.itinBase c + s.dirf c (s.cwy c).run.shape die 8 8 + 4096 * block
    let crc := fail.crc.filter (fun e => decide (4 * e.flit < ws.length) && fetchCrosses die (at_ + 64 * e.flit))
    let s := (hbmSnoop at_ (16 * ws.length) s).modRun c (fun r => { r with
      buf := ((die, block, patchWords ws crc) :: r.buf.filter (fun e => e.1 == die && e.2.1 != block)).take 16 ++ r.buf.filter (fun e => e.1 != die) })
    let s := foldS crc (fun s e => recordErr c (.via e.link) 0 s) s
    let s := hbmErrors c (dieScope die) fail.ecc (fun k => some (at_ + 64 * k)) s
    if fail.ecc.any (·.2) then s.modRun c (fun r => { r with deadDies := if r.deadDies.contains die then r.deadDies else die :: r.deadDies })
    else s

def execStreamFetch (c : Nat) (die : Die) (block : Nat) (fail : ReadFail) (s : State) : Host.Outcome State Fault Refusal :=
  go s (streamFetchOp c die block fail)

end Sys2Proof.Machine
end

