-- ==== Sys2Proof/Machine/Frames.lean ====
section
/-! DEFINITION. Pelind frames: header, encryption, queueing, and the byte streams of votes and releases
(Tables 14.2, 14.3, 14.6, 14.7). -/

namespace Sys2Proof.Machine

/-! ### Frame data bytes -/

/-- A frame header (Table 14.3). -/
def frameHead (ftype port vc : Nat) (last : Bool) (parity job dm sm rxbuf nflits tag off ctr : Nat) : Bytes :=
  leBytes 1 ftype ++ leBytes 1 (port % 8 + 8 * vc + 32 * b2n last + 64 * (parity % 2)) ++ leBytes 2 job ++
    leBytes 2 dm ++ leBytes 2 sm ++ leBytes 1 rxbuf ++ leBytes 1 nflits ++ leBytes 2 tag ++ leBytes 2 off ++ leBytes 2 ctr

/-- 416 data bytes: header, payload, tag of 12 bytes and CRC-32C (Table 14.2). -/
def frameData (head payload tag : Bytes) : Bytes :=
  let b := slice head 0 16 ++ slice payload 0 384 ++ slice tag 0 12
  b ++ leBytes 4 (crc32c b)

/-- Fields of a frame's header. -/
def fType (b : Bytes) : Nat := getLe b 0 1
def fPort (b : Bytes) : Nat := fld (getLe b 1 1) 0 3
def fVc (b : Bytes) : Nat := fld (getLe b 1 1) 3 2
def fLast (b : Bytes) : Bool := bit (getLe b 1 1) 5
def fParity (b : Bytes) : Nat := fld (getLe b 1 1) 6 1
def fJob (b : Bytes) : Nat := getLe b 2 2
def fDst (b : Bytes) : Nat := getLe b 4 2
def fSrc (b : Bytes) : Nat := getLe b 6 2
def fRxbuf (b : Bytes) : Nat := getLe b 8 1
def fFlits (b : Bytes) : Nat := getLe b 9 1
def fTag (b : Bytes) : Nat := getLe b 10 2
def fOff (b : Bytes) : Nat := getLe b 12 2
def fCtr (b : Bytes) : Nat := getLe b 14 2
def fPayload (b : Bytes) : Bytes := slice b 16 384
def fMac (b : Bytes) : Bytes := slice b 400 12

/-- The IV of a frame (R342). -/
def frameIv (sm port vc ctr : Nat) : Bytes := leBytes 2 sm ++ leBytes 1 (port % 8 + 8 * vc) ++ [0] ++ leBytes 8 ctr

/-- A plain frame of this member encrypted for a port with its next counter (R342, R343). -/
def sealFrame (c port : Nat) (plain : Bytes) (s : State) : Bytes × State :=
  let jk := (s.cwy c).jk
  let vc := fVc plain
  let k := 4 * port + vc
  let n := tgetD jk.send k 0
  let head := frameHead (fType plain) port vc (fLast plain) (fParity plain) (fJob plain) (fDst plain) (fSrc plain) (fRxbuf plain)
    (fFlits plain) (fTag plain) (fOff plain) n
  let e := gcmSeal jk.key (frameIv (fSrc plain) port vc n) head (fPayload plain)
  (frameData head e.1 e.2, s.modJk c (fun j => { j with send := tset j.send k (n + 1) }))

/-- The virtual channel of a direction: through slots when it is closed (R346). -/
def State.dirVc (s : State) (c d : Nat) : Nat := if s.closed c d then 1 else 0

/-- The Keystone frames of a stream of bytes: payloads of 384 bytes, the last one marked (R351). -/
def keyFrames (s : State) (c ftype dst vc : Nat) (stream : Bytes) : List Bytes :=
  let n := max 1 (ceilDiv stream.length 384)
  (List.range n).map (fun i =>
    frameData (frameHead ftype 0 vc (i + 1 == n) (s.cwy c).run.parity (s.jobId c) dst (s.self c) 0 0 0 i 0)
      (slice stream (384 * i) 384) [])

/-- A frame of a Carriageway queued to leave in a direction: in its job slots, or in the through slots where the direction
is closed (R338, R346).  DEDUCED: the slots follow the hop that the frame takes from here; its header, which the sender's
tag covers, keeps its vc (log 178). -/
def queueFrame (c d port : Nat) (b : Bytes) (s : State) : State :=
  s.modPort port (fun x => { x with fwd := x.fwd ++ [(c, s.closed c d, b)] })

/-- A Keystone stream sent to another member by the route rule, and kept for retransmission (R351, R352). -/
def sendStream (c ftype dst : Nat) (stream : Bytes) (s : State) : State :=
  match s.route c (s.here c) (s.memberCoord c dst) with
  | none => s
  | some d =>
    match s.outPort c d with
    | none => s
    | some p =>
      let fs := keyFrames s c ftype dst (s.dirVc c d) stream
      let s := s.modJk c (fun j => { j with sent := ((List.range fs.length).zip fs).foldl (fun t e => tset t (256 * dst + e.1) (p, e.2)) j.sent })
      foldS fs (fun s b => queueFrame c d p b s) s

/-- A Carriageway takes the lowest free slots of a port's range, as many as a share. -/
def takeRange (c p share : Nat) (range : List Nat) (s : State) : State :=
  let free := range.filter (fun n => (tget (s.port p).slots n).isNone)
  s.modPort p (fun x => { x with slots := (free.take share).foldl (fun t n => tset t n c) x.slots })

/-- The slots that a Carriageway takes on its ports at enable: of 0 to 55 its share of each direction that is not closed,
and of 56 to 62, on the port of its closure's first hop, its share of each that is (R326). -/
def takeSlots (c : Nat) (s : State) : State :=
  foldS (List.range 6) (fun s p =>
    let s := if s.closed c (s.portMap p) then s else takeRange c p (s.pelShare c (s.portMap p)) (List.range 56) s
    foldS ((List.range 6).filter (fun d => s.closed c d && s.outPort c d == some p)) (fun s d =>
      takeRange c p (s.pelShare c d) ((List.range 7).map (· + 56)) s) s) s

/-! ### Receiving (R324, R325, R333, R342 to R344) -/

/-- A lane has had an event within the last 1 ms (R333). -/
def State.laneQuiet (s : State) (p lane : Nat) : Bool :=
  match tget (s.port p).laneEvt lane with | some t => decide (s.pw.refTicks < t + 100000) | none => false

/-- An event of a logical lane, at most one per lane and 1 ms (R333). -/
def laneEvent (p l : Nat) (s : State) : State :=
  let lane := s.laneUnit p l
  if s.laneQuiet p lane then s
  else portEvent p (.lane p lane) (s.modPort p (fun x => { x with laneEvt := tset x.laneEvt lane s.pw.refTicks }))

/-- Bytes corrected on the lanes of a port by one frame: more than lane_cb_thr within 1 ms are a lane event (R333). -/
def noteFixed (p : Nat) (wire : Bytes) (s : State) : State :=
  let now := s.pw.refTicks
  foldS ((List.range 8).filter (fun l => fecFixed wire l != 0)) (fun s l =>
    let lane := s.laneUnit p l
    let recent := (tgetD (s.port p).laneFix lane []).filter (fun e => decide (now < e.1 + 100000)) ++ [(now, fecFixed wire l)]
    let s := s.modPort p (fun x => { x with laneFix := tset x.laneFix lane recent })
    if s.portCtl p 16 16 < (recent.map (·.2)).sum then laneEvent p l s else s) s

/-- The unit that a failed frame names: the lane that lost lock during it, else the direction (R333). -/
def State.failUnit (s : State) (p : Nat) (lockLost : Option Nat) : WinUnit :=
  match lockLost with | some l => .lane p (s.laneUnit p l) | none => .dir p

/-- A failed frame that is no integrity error of a Carriageway: an event of its lane or direction (R333). -/
def frameEvent (p : Nat) (lockLost : Option Nat) (s : State) : State :=
  match lockLost with
  | some l => laneEvent p l s
  | none => portEvent p (.dir p) s

/-- A failed frame is an integrity error of the link (R235).  A lane that has had an event within 1 ms gains none by it,
unless the run's own error is that event (R333). -/
def frameErr (c p : Nat) (lockLost : Option Nat) (s : State) : State :=
  let u := s.failUnit p lockLost
  let s := match lockLost.map (s.laneUnit p) with
    | none => s
    | some l =>
      if !s.laneQuiet p l then s.modPort p (fun x => { x with laneEvt := tset x.laneEvt l s.pw.refTicks })
      else if (s.cwy c).run.hasEvent u then s
      else s.modRun c (fun r => { r with counted := u :: r.counted })
  recordErr c u 0 s

/-- The data bytes of a received frame, and whether FEC and CRC-32C hold (R325). -/
def frameBytes (wire : Bytes) : Bytes × Bool :=
  match fecDecode wire with
  | some b => (b, crc32c (slice b 0 412) == getLe b 412 4)
  | none => (slice wire 0 416, false)

/-- The counter of a received frame (R343). -/
def nextCtr (next ctr : Nat) : Nat := next + (ctr + 65536 - next % 65536) % 65536

/-- A frame of the job is opened: its payload, with its counter accepted; none where its tag fails, with the
link-authentication event (R342 to R344). -/
def openFrame (c p : Nat) (b : Bytes) (s : State) : Option Bytes × State :=
  let jk := (s.cwy c).jk
  let k := 32 * fSrc b + 4 * fPort b + fVc b
  let n := nextCtr (tgetD jk.recv k 0) (fCtr b)
  match gcmOpen jk.key (frameIv (fSrc b) (fPort b) (fVc b) n) (slice b 0 16) (fPayload b) (fMac b) with
  | some pt => (some pt, s.modJk c (fun j => { j with recv := tset j.recv k (n + 1) }))
  | none => (none, post 0x51 (if p < 3 then 6 else 7) (leBytes 1 p) (s.modPort p (fun x => { x with authFail := satAdd 16 x.authFail 1 })))

/-- A Keystone frame of the stream that another member sends to this one. -/
def State.keyStream (s : State) (c ftype src : Nat) (b : Bytes) : Bool :=
  fType b == ftype && fJob b == s.jobId c && fDst b == s.self c && fSrc b == src

/-- A Keystone frame's data bytes and, where FEC, CRC-32C and tag hold, its payload. -/
def openKey (c : Nat) (f : KeyFrame) (s : State) : (Bytes × Option Bytes) × State :=
  let x := frameBytes f.wire
  let s := noteFixed f.port f.wire s
  if x.2 then let y := openFrame c f.port x.1 s; ((x.1, y.1), y.2) else ((x.1, none), s)

/-! ### Vote stream (Table 14.6) -/

def bitsOf (l : List Nat) : Nat := (l.eraseDups.map (fun n => 2 ^ n)).sum
def bitList (n w : Nat) : List Nat := (List.range n).filter (bit w)

def voteFlags (v : Vote) : Nat :=
  b2n v.bad + 2 * b2n v.stopOrder + 4 * b2n v.accRed + 8 * b2n v.glideBusy + 16 * b2n v.takeover + 32 * b2n v.holdReq + 64 * b2n v.holdDone

def countBytes (slot : Nat) (k : Counts) : Bytes :=
  leBytes 2 slot ++ leBytes 4 k.sentPass ++ leBytes 4 k.csumPass ++ leBytes 3 k.csumSkip ++ leBytes 4 k.gsumPass ++
    leBytes 3 k.gsumSkip ++ leBytes 4 k.sampPass ++ leBytes 4 k.clips ++ leBytes 4 k.unrep

def voteBytes (v : Vote) : Bytes :=
  slice (leBytes 8 v.step ++ leBytes 4 v.aborts ++ leBytes 1 (voteFlags v) ++ leBytes 1 v.stopCause ++ leBytes 1 v.target ++ [0] ++
    leBytes 2 v.gap ++ leBytes 2 v.holdLayer ++ leBytes 2 v.grants ++ leBytes 2 v.denials ++ leBytes 8 v.energy ++
    leBytes 32 (bitsOf v.spReady) ++ leBytes 2 v.counts.length) 0 384 ++ v.counts.flatMap (fun e => countBytes e.1 e.2)

def countAt (b : Bytes) (o : Nat) : Nat × Counts :=
  (getLe b o 2, { sentPass := getLe b (o + 2) 4, csumPass := getLe b (o + 6) 4, csumSkip := getLe b (o + 10) 3
                  gsumPass := getLe b (o + 13) 4, gsumSkip := getLe b (o + 17) 3, sampPass := getLe b (o + 20) 4
                  clips := getLe b (o + 24) 4, unrep := getLe b (o + 28) 4 })

def voteOf (b : Bytes) : Vote :=
  let f := getLe b 12 1
  { step := getLe b 0 8, aborts := getLe b 8 4, bad := bit f 0, stopOrder := bit f 1, accRed := bit f 2, glideBusy := bit f 3
    takeover := bit f 4, holdReq := bit f 5, holdDone := bit f 6, stopCause := getLe b 13 1, target := getLe b 14 1
    gap := getLe b 16 2, holdLayer := getLe b 18 2, grants := getLe b 20 2, denials := getLe b 22 2, energy := getLe b 24 8
    spReady := bitList 256 (getLe b 32 32)
    counts := (List.range (getLe b 64 2)).foldl (fun t i => let e := countAt b (384 + 32 * i); tset t e.1 e.2) [] }

/-- Counts of one slot summed, saturating in their fields. -/
def addCounts (a b : Counts) : Counts :=
  { sentPass := satAdd 32 a.sentPass b.sentPass, csumPass := satAdd 32 a.csumPass b.csumPass, csumSkip := satAdd 24 a.csumSkip b.csumSkip
    gsumPass := satAdd 32 a.gsumPass b.gsumPass, gsumSkip := satAdd 24 a.gsumSkip b.gsumSkip, sampPass := satAdd 32 a.sampPass b.sampPass
    clips := satAdd 32 a.clips b.clips, unrep := satAdd 32 a.unrep b.unrep }

/-- Two votes merged (Table 14.6). -/
def mergeVote (a b : Vote) : Vote :=
  { step := a.step, aborts := a.aborts, bad := a.bad || b.bad, stopOrder := a.stopOrder || b.stopOrder, accRed := a.accRed || b.accRed
    glideBusy := a.glideBusy || b.glideBusy, takeover := a.takeover || b.takeover, holdReq := a.holdReq || b.holdReq
    holdDone := a.holdDone || b.holdDone, stopCause := max a.stopCause b.stopCause
    target := if a.target = b.target then a.target else 0xFF, gap := max a.gap b.gap, holdLayer := min a.holdLayer b.holdLayer
    grants := a.grants + b.grants, denials := a.denials + b.denials, energy := a.energy + b.energy
    spReady := a.spReady.filter (fun n => b.spReady.contains n)
    counts := b.counts.foldl (fun t e => tset t e.1 (addCounts (tgetD t e.1 {}) e.2)) a.counts }

/-! ### Release stream (Table 14.7) -/

def releaseFlags (r : Release) : Nat :=
  b2n r.good + 2 * b2n r.stop + 4 * b2n r.glide + 8 * b2n r.glideUp + 16 * b2n r.holdGranted + 32 * b2n r.barrier + 64 * b2n r.failed + 128 * b2n r.idle

def admBytes (a : Adm) : Bytes :=
  padTo 16 (leBytes 2 a.slot ++ leBytes 1 a.phase ++ leBytes 1 a.vars.length ++ leBytes 4 a.handle ++ leBytes 4 a.first ++ leBytes 2 a.tokens ++
    leBytes 2 (match a.spandrel with | some n => n + 32768 | none => 0) ++ leBytes 4 a.node ++ leBytes 1 a.topk ++ leBytes 1 (b2n a.sampled) ++
    leBytes 2 a.temp ++ zeros 8 ++ a.vars.flatMap (fun v => slice v 0 4))

def releaseBytes (r : Release) : Bytes :=
  slice (leBytes 8 r.step ++ leBytes 4 r.aborts ++ leBytes 1 (releaseFlags r) ++ leBytes 1 r.shape ++ leBytes 1 r.stopCause ++ [0] ++
    leBytes 2 r.gap ++ leBytes 2 r.holdLayer ++ leBytes 2 r.commit.length ++ leBytes 2 r.adm.length ++ leBytes 32 (bitsOf r.spCurrent) ++
    leBytes 32 (bitsOf r.spFree)) 0 384 ++ padTo 16 (r.commit.flatMap (leBytes 1)) ++ r.adm.flatMap admBytes

/-- Admission records from an offset. -/
def admsFrom (b : Bytes) (n o : Nat) : List Adm :=
  match n with
  | 0 => []
  | k + 1 =>
    let nv := getLe b (o + 3) 1
    let sp := getLe b (o + 14) 2
    let a : Adm := { slot := getLe b o 2, phase := getLe b (o + 2) 1, handle := getLe b (o + 4) 4, first := getLe b (o + 8) 4
                     tokens := getLe b (o + 12) 2, spandrel := if bit sp 15 then some (sp % 256) else none, node := getLe b (o + 16) 4
                     topk := getLe b (o + 20) 1, sampled := bit (getLe b (o + 21) 1) 0, temp := getLe b (o + 22) 2
                     vars := (List.range nv).map (fun i => slice b (o + 32 + 4 * i) 4) }
    a :: admsFrom b k (o + 32 + (4 * nv + 15) / 16 * 16)

def releaseOf (b : Bytes) : Release :=
  let f := getLe b 12 1
  let c := getLe b 20 2
  { step := getLe b 0 8, aborts := getLe b 8 4, good := bit f 0, stop := bit f 1, glide := bit f 2, glideUp := bit f 3
    holdGranted := bit f 4, barrier := bit f 5, failed := bit f 6, idle := bit f 7, shape := getLe b 13 1, stopCause := getLe b 14 1
    gap := getLe b 16 2, holdLayer := getLe b 18 2, commit := (List.range c).map (fun i => getLe b (384 + i) 1)
    adm := admsFrom b (getLe b 22 2) (384 + (c + 15) / 16 * 16)
    spCurrent := bitList 256 (getLe b 24 32), spFree := bitList 256 (getLe b 56 32) }

end Sys2Proof.Machine
end

