-- ==== Sys2Proof/Machine/Admit.lean ====
section
/-! DEFINITION. The admission of a Keystone: candidates, ranking, fill, choice of the shape and the
admission records (R166 to R174, R188). -/

namespace Sys2Proof.Machine

/-- Tokens of the context that the chunks of a request cover: its prompt, with the generated tokens of a
rebuilt request (R205). -/
def Req.ctxLen (q : Req) : Nat := q.par.promptLen + (if q.rebuilding then q.gen.length else 0)

/-- First position of the next chunk: after the pages of the prefix tree, then after what is committed. -/
def Req.chunkStart (q : Req) : Nat := if q.len = 0 then 16 * q.hits.length else q.len

/-- Length of the next chunk (R172). -/
def Req.chunkLen (q : Req) : Nat := min 256 (q.ctxLen - q.chunkStart)

/-- The next chunk is resident; a companion uses the prompt tokens that its target read (R173). -/
def State.chunkReady (s : State) (h : Nat) (q : Req) : Bool :=
  if q.isComp then
    match s.reqs.find? (fun e => e.2.companion == some h) with
    | some e => decide (q.chunkStart + q.chunkLen ≤ e.2.ptoks.length)
    | none => false
  else q.ready && !q.lookup

/-- Candidate tokens of a decoding request: its companion's tentative tokens beyond its own (R173). -/
def State.candToks (s : State) (q : Req) : List Nat :=
  match q.companion with
  | none => []
  | some g => match s.req g with
    | none => []
    | some x => if x.gen.take q.gen.length == q.gen then x.gen.drop q.gen.length else []

/-- The candidates of a Carriageway, ascending in sequence number (section 7, Admission at the Keystone). -/
def State.cands (s : State) (c : Nat) : List (Nat × Req) :=
  (s.liveReqs c).filter (fun e => match e.2.phase with
    | .decode => !(e.2.isComp && decide (e.2.par.maxNew ≤ e.2.gen.length))
    | .prefill | .queued => s.chunkReady e.1 e.2
    | .paused => false)

def phaseNo : Phase → Nat
  | .decode => 0 | .prefill => 1 | .queued => 2 | .paused => 3

/-- rank_key (R168). -/
def State.rankKey (s : State) (q : Req) : List Nat :=
  if s.bounded q.tenant then [0, phaseNo q.phase, 0, q.seq] else [1, 3 - s.tenPrio q.tenant, phaseNo q.phase, q.seq]

/-- Lexicographic order of keys. -/
def lexLt : List Nat → List Nat → Bool
  | a :: r, b :: t => decide (a < b) || a == b && lexLt r t
  | [], _ :: _ => true
  | _, [] => false

/-- The candidates in rank order. -/
def State.ranked (s : State) (c : Nat) : List (Nat × Req) :=
  (s.cands c).foldr (fun e acc => (acc.takeWhile (fun x => lexLt (s.rankKey x.2) (s.rankKey e.2))) ++
    e :: (acc.dropWhile (fun x => lexLt (s.rankKey x.2) (s.rankKey e.2)))) []

/-- Positions that shape n would add for a request. -/
def State.addPos (s : State) (c n : Nat) (q : Req) : Nat :=
  if q.phase == .decode then 1 + min (s.candToks q).length (s.specCands c n) else q.chunkLen

/-- pages(q, s) of R169: page count in this member's ring share after those positions. -/
def State.pagesOf (s : State) (c n : Nat) (q : Req) : Nat :=
  let total := ceilDiv ((if q.phase == .decode then q.len else q.chunkStart) + s.addPos c n q) 16
  let rs := max 1 (s.ringSize c)
  (total + rs - 1 - s.ringPos c) / rs

/-- Active requests of a tenant on a Carriageway (R167); companions apart (log 161). -/
def State.activeOf (s : State) (c t : Nat) : Nat :=
  (s.reqs.filter (fun e => e.2.cwy == c && e.2.tenant == t && !e.2.isComp &&
    (e.2.phase == .prefill || e.2.phase == .decode || e.2.phase == .paused && e.2.back != .queued))).length

/-- What fill carries along: slots taken, placements, new requests by tenant, frames, reserve and table bytes. -/
structure FillAcc where
  nd : Nat := 0
  nc : Nat := 0
  placed : List (Nat × Nat × Req) := []
  news : Tab Nat := []
  avail : Int
  reserve : Int
  tab : Int

/-- A chunk candidate that holds no reservation must find its frames free, and its page-table chunks unless it holds them
since before a rebuild (R186, R188). -/
def State.fits (s : State) (c : Nat) (a : FillAcc) (q : Req) : Bool :=
  if s.kvLayers c = 0 || q.resv.isSome then true
  else
    let r : Int := s.resvFor c q.pagesAll q.hits.length
    let room := if s.bounded q.tenant then a.avail else a.avail - max 0 a.reserve
    decide (r ≤ room) && (q.chunked || decide ((q.chunkBytes : Int) ≤ a.tab))

/-- One candidate of fill (R169, R188).  DESIGN CHOICE (log 161): a companion, whose tenant needs no binding to the draft
Carriageway (R173), is placed whatever max_active says and is not counted in new. -/
def fillStep (s : State) (c n : Nat) (a : FillAcc) (e : Nat × Req) : FillAcc :=
  let q := e.2
  if s.kvPages c n < s.pagesOf c n q then a
  else if q.phase == .decode then
    if a.nd < s.decodeSlots c n then { a with nd := a.nd + 1, placed := a.placed ++ [(a.nd, e)] } else a
  else if s.prefillChunks c n ≤ a.nc || !s.fits c a q then a
  else if q.phase == .prefill || decide (s.activeOf c q.tenant + tgetD a.news q.tenant 0 < s.tenActive q.tenant) || q.isComp then
    let free := s.kvLayers c = 0 || q.resv.isSome
    let r : Int := s.resvFor c q.pagesAll q.hits.length
    { a with nc := a.nc + 1, placed := a.placed ++ [(s.decodeSlots c n + a.nc, e)]
             news := if q.phase == .queued && !q.isComp then tmod a.news q.tenant 0 (· + 1) else a.news
             avail := if free then a.avail else a.avail - r
             reserve := if !free && s.bounded q.tenant then a.reserve - r else a.reserve
             tab := if free || q.chunked then a.tab else a.tab - q.chunkBytes }
  else a

/-- procedure fill (R169). -/
def State.fill (s : State) (c n : Nat) (cs : List (Nat × Req)) : List (Nat × Nat × Req) :=
  (cs.foldl (fillStep s c n) { avail := s.availFrames c, reserve := s.boundedRaw c, tab := s.tabFree c }).placed

/-- beats (R169): the first candidate placed by exactly one of the two is placed by the first. -/
def beatsFill (cs : List (Nat × Req)) (a b : List (Nat × Nat × Req)) : Bool :=
  let inA := fun (h : Nat) => a.any (fun x => x.2.1 == h)
  let inB := fun (h : Nat) => b.any (fun x => x.2.1 == h)
  match cs.find? (fun e => inA e.1 != inB e.1) with
  | some e => inA e.1
  | none => false

/-- procedure choose (R169): the shape and its placements.  DESIGN CHOICE (log 162): `a = best` compares the candidates
placed and not their slot numbers, which differ with decode_slots. -/
def State.choose (s : State) (c : Nat) : Nat × List (Nat × Nat × Req) :=
  let cs := s.ranked c
  (List.range (s.shapeCount c - 1)).foldl (fun best i =>
    let n := i + 1
    let a := s.fill c n cs
    if beatsFill cs a best.2 || (!beatsFill cs best.2 a && decide (s.shapeL c n < s.shapeL c best.1)) then (n, a) else best) (0, s.fill c 0 cs)

/-- The variate of generated position n (R166): the first four bytes of SHAKE256 over seed and n. -/
def variate (seed : Bytes) (n : Nat) : Bytes := shake 4 (slice seed 0 8 ++ leBytes 8 n)

/-- The admission record of a placement (Table 14.7). -/
def State.admOf (s : State) (c n : Nat) (p : Nat × Nat × Req) : Adm :=
  let q := p.2.2
  let dec := q.phase == .decode
  let k := if dec then min (s.candToks q).length (s.specCands c n) else 0
  let final := q.ctxLen ≤ q.chunkStart + q.chunkLen
  let nv := if dec then 1 + k else if final then 1 else 0
  { slot := p.1, phase := if dec then 0 else if q.len = 0 then 2 else 1
    handle := p.2.1, first := if dec then q.len else q.chunkStart, tokens := if dec then 1 + k else q.chunkLen
    spandrel := q.spandrel, node := if dec || q.len != 0 then 0xFFFFFFFF else q.hits.getLastD 0xFFFFFFFF
    topk := q.par.topk, sampled := q.par.sampled, temp := q.par.temp
    vars := (List.range nv).map (fun i => variate q.par.seed (q.gen.length + 1 + i)) }

/-- The next shape and admission of a Carriageway: none when no request is a candidate or can be placed. -/
def State.admission (s : State) (c : Nat) : Option (Nat × List Adm) :=
  let ch := s.choose c
  if ch.2.isEmpty then none else some (ch.1, ch.2.map (s.admOf c ch.1))

/-- Accepted candidates of a decode slot: the longest run of candidates that the selection confirms (R174). -/
def acceptedRun : List Nat → List Nat → Nat
  | k :: ks, t :: ts => if k == t then 1 + acceptedRun ks ts else 0
  | _, _ => 0

end Sys2Proof.Machine
end

