-- ==== Sys2Proof/Machine/Commit.lean ====
section
/-! DEFINITION. What a Keystone's release does on a member: fault windows, staging commit, requests and
orders, wide mode, deferred changes (R122, R123, Tables 7.6 and 8.2). -/

namespace Sys2Proof.Machine

/-! ### The run just closed -/

/-- The errors of the closed run become at most one event per instance, and are evaluated (R254, R255);
a waiting RAS_WIN_CFG takes effect for this Carriageway (R257). -/
def closeRun (c : Nat) (s : State) : State :=
  let r := (s.cwy c).run
  let errs := r.voteErrs.filter (fun e => !r.counted.contains e.unit)
  let s := (addEvents (b2n r.replay) errs s).modRun c (fun r => { r with voteErrs := [], counted := [] })
  evaluate ((errs.map (·.unit)).eraseDups ++ r.counted ++ s.cfgNew c) (dropCfg c s)

/-- Demands start as actions, escalate or queue, oldest first (R266). -/
def startDemands (s : State) : State :=
  startQueued 40 (foldS s.ras.demands (fun s d => takeDemand 8 d.unit s) (s.modRas (fun r => { r with demands := [] })))

/-- The state that the window evaluation of the run in progress will leave (R255): a vote carries the stops and
the takeovers that it brings (R154, R261). -/
def State.foreseen (s : State) (c : Nat) : State := startDemands (closeRun c (s.modRun c (fun r => { r with voteErrs := r.errs })))

/-! ### Staging commit and pages (R192 to R196) -/

/-- Tokens committed of a selection: up to the first stop token and to max_new. -/
def takeTokens (stops : List Nat) (room : Nat) : List Nat → List Nat
  | [] => []
  | t :: r => if room = 0 then [] else if t != 0xFFFFFFFF && stops.contains t then [t] else t :: takeTokens stops (room - 1) r

/-- The chunk of an admission record is its request's final one. -/
def Req.finalChunk (q : Req) (a : Adm) : Bool := a.phase != 0 && decide (q.ctxLen ≤ a.first + a.tokens)

/-- The tokens that a step commits for an admission record (R174). -/
def Req.stepToks (q : Req) (a : Adm) (acc : Nat) (sel : List Nat) : List Nat :=
  let room := q.par.maxNew - q.gen.length
  if acc = 0xFF then []
  else if a.phase = 0 then takeTokens q.par.stops room (sel.take (acc + 1))
  else if q.finalChunk a then takeTokens q.par.stops room (sel.take 1) else []

/-- Positions that the Keystone commits for an admission record of accepted count a, 0xFF for none: of a decode slot as many
as the lead commits tokens (R174, R192).  Another member, whom the release tells a alone, takes a + 1; a request that a
truncation ends drops the rest at the same Keystone. -/
def State.commitCount (s : State) (c : Nat) (a : Adm) (acc : Nat) : Nat :=
  if acc = 0xFF then 0
  else if a.phase ≠ 0 then a.tokens
  else match if s.isLead c then s.req a.handle else none with
    | some q => (q.stepToks a acc (tgetD (s.cwy c).run.sel a.slot [])).length
    | none => acc + 1

/-- The Abutment that owns a frame's block. -/
def State.blockDie (s : State) (c f blk : Nat) : Die := abutOf (stackOf (s.frameAddr c f blk))

/-- Open blocks of a Carriageway on one Abutment. -/
def State.openOn (s : State) (c : Nat) (d : Die) : Nat :=
  ((s.cwy c).kv.open_.filter (fun o => match s.req o.handle with
    | some q => match s.pageFrame c q o.page with | some f => s.blockDie c f o.blk == d | none => false
    | none => false)).length

/-- One committed entry: into its open block, a free cache block, or the frame (R192).  DESIGN CHOICE: while the page's open
block is being written out, an entry opens a second one, and the newest that covers a position is read (log 211). -/
def commitEntry (c h pos blk : Nat) (data : Bytes) (s : State) : State :=
  match s.req h with
  | none => s
  | some q =>
    let page := pos / 16; let t := pos % 16
    match s.pageFrame c q page with
    | none => s
    | some f =>
      let put := fun (o : OpenBlk) => { o with mask := o.mask ||| 2 ^ t, data := memPut (memZero o.data (256 * t) 256) (256 * t) data }
      match (s.cwy c).kv.open_.find? (fun o => o.handle == h && o.page == page && o.blk == blk && !o.writing) with
      | some _ => s.modKv c (fun k => { k with open_ := k.open_.map (fun o =>
          if o.handle == h && o.page == page && o.blk == blk && !o.writing then put o else o) })
      | none =>
        if s.openOn c (s.blockDie c f blk) < 16 * s.kvf c 176 11 then
          s.modKv c (fun k => { k with open_ := k.open_ ++ [put { handle := h, page := page, blk := blk }] })
        else ownWrite (s.frameAddr c f blk + 256 * t) data s

/-- Tokens of one page of a request's context. -/
def Req.pageToks (q : Req) (k : Nat) : List Nat := ((q.ptoks.take q.par.promptLen ++ q.gen).drop (16 * k)).take 16

/-- The salt of R195. -/
def Req.salt (q : Req) : Bytes := shake 16 (slice q.cert.wset 0 64 ++ slice q.cert.spDigest 0 64)

/-- The hash of a page (R195). -/
def pageHash (parent : Bytes) (toks : List Nat) (salt : Bytes) : Bytes :=
  shake 8 (slice parent 0 8 ++ toks.flatMap (leBytes 4) ++ salt)

/-- Lowest node handle that no node has (R197). -/
def lowestNode (ns : Tab Node) : Nat := lowestFree (ns.map (·.1))

/-- The node that stands for a page of a request, if one does. -/
def Req.nodeOf (q : Req) (k : Nat) : Option Nat := match tget q.pages k with | some (3, n) => some n | _ => none

/-- Handle of the parent of a node for page k: none for page 0. -/
def Req.parentOf (q : Req) (k : Nat) : Nat := if k = 0 then 0xFFFFFFFF else (q.nodeOf (k - 1)).getD 0xFFFFFFFF

/-- Page k of a request becomes a node with the lowest free handle: the frame passes to it (R196 to R198). -/
def setNode (c h k : Nat) (hash : Bytes) (toks : List Nat) (s : State) : State :=
  match s.req h with
  | none => s
  | some q =>
    match tget q.pages k with
    | some (1, f) =>
      let n := lowestNode (s.cwy c).kv.nodes
      let x : Node := { hash := hash, parent := q.parentOf k, frame := f, pos := s.pagePos c k, refs := 1
                        lastUse := (s.cwy c).life.step, toks := toks }
      let s := if k = 0 then s else addRef c (q.parentOf k) s
      let s := s.modKv c (fun y => { y with nodes := tset y.nodes n x })
      s.modReq h (fun q => { q with pages := tset q.pages k (3, n) })
    | _ => s

/-- A node for page k when R196 allows it, by the lead's judgement; otherwise the request inserts none of its later
pages. -/
def makeNode (c h k : Nat) (s : State) : State :=
  match s.req h with
  | none => s
  | some q =>
    if !q.inserting || q.isComp || !s.tenShare q.tenant || (q.nodeOf k).isSome then s
    else
      let ph := match tget (s.cwy c).kv.nodes (q.parentOf k) with | some x => x.hash | none => []
      let hash := pageHash ph (q.pageToks k) q.salt
      let dup := (s.cwy c).kv.nodes.any (fun e => e.2.hash == hash && e.2.parent == q.parentOf k)
      if (List.range k).all (fun i => (q.nodeOf i).isSome) && !dup && (match tget q.pages k with | some (1, _) => true | _ => false) then
        setNode c h k hash (q.pageToks k) s
      else s.modReq h (fun q => { q with inserting := false })

/-- Rows 1 and 2 of Table 8.2 for one admission record, of which np positions commit. -/
def commitSlot (c : Nat) (a : Adm) (np : Nat) (s : State) : State :=
  let ents := (s.cwy c).kv.staged.filter (fun e => e.aslot == a.slot && decide (e.tok < np))
  let s := foldS ents (fun s e => match s.kvBlock c e.layer e.head with
    | some blk => commitEntry c a.handle (a.first + e.tok) blk e.data s
    | none => s) s
  let s := s.modKv c (fun k => { k with staged := k.staged.filter (fun e => e.aslot != a.slot) })
  if np = 0 then s else s.modReq a.handle (fun q => { q with len := a.first + np })

/-- Row 2 of Table 8.2: pages that the record's positions filled. -/
def fillPages (c : Nat) (a : Adm) (np : Nat) (s : State) : State :=
  let full := (List.range ((a.first + np) / 16)).filter (fun k => decide (a.first / 16 ≤ k))
  foldS full (fun s k => makeNode c a.handle k (writeOpens c (fun o => o.handle == a.handle && o.page == k) s)) s

/-! ### Requests of the step (R167, R174, R246, R247) -/

/-- A wide-run record for one generated token (R247). -/
def addRun (n g d : Nat) (k : CertRec) : CertRec :=
  match k.runs.reverse with
  | [] => if g = 0 ∧ d = 0 then k else { k with runs := [(n, 1, g, d)] }
  | (f, m, g0, d0) :: r =>
    if k.runTrunc then { k with runs := (r.reverse) ++ [(f, n + 1 - f, max g g0, max d d0)] }
    else if g = 0 ∧ d = 0 then k
    else if f + m = n ∧ g = g0 ∧ d = d0 then { k with runs := r.reverse ++ [(f, m + 1, g, d)] }
    else if k.runs.length < 4096 then { k with runs := k.runs ++ [(n, 1, g, d)] }
    else { k with runs := r.reverse ++ [(f, n + 1 - f, max g g0, max d d0)], runTrunc := true }

/-- The counts that the certificate of a request gains in a good-seal step (R246). -/
def certStep (v : Vote) (slot : Nat) (toks : List Nat) (n0 : Nat) (k : CertRec) : CertRec :=
  let x := { k with counts := addCounts64 k.counts (tgetD v.counts slot {}), seals := k.seals + 1, accRed := k.accRed || v.accRed
                    grants := k.grants + toks.length * v.grants, denials := k.denials + toks.length * v.denials }
  (List.range toks.length).foldl (fun k i => addRun (n0 + 1 + i) v.grants v.denials k) x
where
  /-- Certificate counts are 64 bits wide. -/
  addCounts64 (a b : Counts) : Counts :=
    { sentPass := a.sentPass + b.sentPass, csumPass := a.csumPass + b.csumPass, csumSkip := a.csumSkip + b.csumSkip
      gsumPass := a.gsumPass + b.gsumPass, gsumSkip := a.gsumSkip + b.gsumSkip, sampPass := a.sampPass + b.sampPass
      clips := a.clips + b.clips, unrep := a.unrep + b.unrep }

/-- The reads of n tokens of a request's context from a position: its prompt, then its token buffer (R172, R205). -/
def readContext (h a n : Nat) (s : State) : State :=
  match s.req h with
  | none => s
  | some q =>
    let p := some (s.tenPasid q.tenant)
    let k := min n (q.par.promptLen - a)
    let s := s.when (k != 0) (hostRead p (q.par.prompt + 4 * a) (4 * k))
    s.when (decide (k < n)) (hostRead p (q.par.buf + 64 + 4 * (a + k - q.par.promptLen)) (4 * (n - k)))

/-- The read of a request's next chunk (R172), from its prompt and, when rebuilt, its token buffer (R205). -/
def askChunk (h : Nat) (s : State) : State :=
  match s.req h with
  | none => s
  | some q => if q.isComp then s else readContext h q.chunkStart q.chunkLen (s.modReq h (fun q => { q with ready := false }))

/-- Pages that a lookup may match: H of R195. -/
def Req.lookMax (q : Req) : Nat := (q.ctxLen - 1) / 16

/-- The lookup of a request goes on with its next page, or ends and the next chunk is read (R195, R172). -/
def lookNext (h : Nat) (s : State) : State :=
  match s.req h with
  | none => s
  | some q =>
    if q.lookup && decide (q.hits.length < q.lookMax) then readContext h (16 * q.hits.length) 16 s
    else askChunk h (s.modReq h (fun q => { q with lookup := false }))

/-- The companion is reset to the target's committed length: its tokens and its positions are the committed ones, and a step
of the draft Carriageway that is still in flight commits nothing for it (R174).  DESIGN CHOICE: a companion that has not
finished its prompt goes on with it (log 193). -/
def resetCompanion (h : Nat) (s : State) : State :=
  match s.req h with
  | none => s
  | some q => match q.companion with
    | none => s
    | some g => match s.req g with
      | none => s
      | some x => if x.phase != .decode then s else dropAdm x.cwy g (s.modReq g (fun x => { x with gen := q.gen, len := q.len }))

/-- Token data and the count word of a request (R378). -/
def writeTokens (h n0 : Nat) (toks : List Nat) (s : State) : State :=
  match s.req h with
  | none => s
  | some q =>
    if q.isComp || toks.isEmpty then s
    else
      let p := some (s.tenPasid q.tenant)
      let s := hostWrite p (q.par.buf + 64 + 4 * n0) (toks.flatMap (leBytes 4)) s
      hostWrite p q.par.buf (leBytes 4 (n0 + toks.length) ++ zeros 60) s

/-- A request of the step's admission takes what the step commits (lead; R167, R174). -/
def commitReq (c : Nat) (v : Vote) (a : Adm) (acc : Nat) (s : State) : State :=
  if acc = 0xFF then s
  else s.modReq a.handle (fun q =>
    let toks := q.stepToks a acc (tgetD (s.cwy c).run.sel a.slot [])
    { q with gen := q.gen ++ toks, phase := if q.finalChunk a then .decode else q.phase
             rebuilding := q.rebuilding && !q.finalChunk a, cert := certStep v a.slot toks q.gen.length q.cert })

/-- What the host and the companion see of a request's commit: its token data, the read of its next chunk, and the
companion's reset (R16, R172, R174); `q` is the request before it. -/
def giveReq (c : Nat) (a : Adm) (acc : Nat) (q : Req) (s : State) : State :=
  if acc = 0xFF then s
  else
    let s := writeTokens a.handle q.gen.length (q.stepToks a acc (tgetD (s.cwy c).run.sel a.slot [])) s
    let s := if a.phase != 0 && !q.finalChunk a then askChunk a.handle s else s
    resetCompanion a.handle s

/-- The request has committed a stop token or its max_new-th token (R167). -/
def Req.finished (q : Req) : Bool :=
  !q.isComp && (decide (q.par.maxNew ≤ q.gen.length) && q.gen.length != 0 ||
    match q.gen.getLast? with | some t => t != 0xFFFFFFFF && q.par.stops.contains t | none => false)

/-! ### Pause and resume (R199 to R204) -/

/-- Far frames that a tenant's region holds on this member, and its byte address. -/
def State.farFrames (s : State) (c t : Nat) : Nat := if s.frameSize c = 0 then 0 else s.far t 64 32 * 4096 / s.frameSize c
def State.farAddr (s : State) (c t ff blk : Nat) : Nat := s.far t 0 64 + ff * s.frameSize c + 4096 * blk

/-- Blocks of a frame. -/
def State.nBlocks (s : State) (c : Nat) : Nat := s.kvLayers c * s.kvHeads c

/-- The additional data of a far block (R202). -/
def farAad (s : State) (c h page blk : Nat) : Bytes :=
  let heads := max 1 (s.kvHeads c)
  leBytes 4 h ++ leBytes 4 page ++ leBytes 1 (blk / heads) ++ leBytes 1 (blk % heads) ++ zeros 2

def farIv (ctr : Nat) : Bytes := leBytes 8 ctr ++ zeros 4

/-- One block of a page that this member holds encrypted and written to its far frame (R201, R202). -/
def farBlock (c h page blk : Nat) (s : State) : State :=
  match s.req h with
  | none => s
  | some q =>
    match if s.holds c page then s.pageFrame c q page else none, tget q.farOf page with
    | some f, some ff =>
      let n := (s.cwy c).life.farCtr
      let s := hbmSnoop (s.frameAddr c f blk) 4096 s
      let e := gcmSeal (s.cwy c).life.farKey (farIv n) (farAad s c h page blk) (memBytes s.hbm (s.frameAddr c f blk) 4096)
      let s := hostWrite (some (s.tenPasid q.tenant)) (s.farAddr c q.tenant ff blk) e.1 s
      let s := s.modLife c (fun l => { l with farCtr := l.farCtr + 1 })
      syncMeta c (s.modKv c (fun k => { k with far := k.far.filter (fun x => !(x.1 == h && x.2.1 == page && x.2.2.1 == blk)) ++ [(h, page, blk, n, e.2)] }))
    | _, _ => s

/-- Reads of the far blocks that a restore still needs of the pages that this member holds. -/
def askBlocks (c h : Nat) (s : State) : State :=
  match s.req h with
  | none => s
  | some q => foldS (q.restore.filter (fun e => s.holds c e.1)) (fun s e => match tget q.farOf e.1 with
    | some ff => hostRead (some (s.tenPasid q.tenant)) (s.farAddr c q.tenant ff e.2) 4096 s
    | none => s) s

/-- No transfer and no host write of the Carriageway happens while it is STOPPED (R154, R203). -/
def State.moves (s : State) (c : Nat) : Bool := s.inState c [.starting, .running, .stopping]

/-- Pages of a request in the pool. -/
def Req.poolPages (q : Req) : List Nat := (q.pages.filter (fun e => e.2.1 == 1)).map (·.1)

/-- Copy-out begins: every pool page takes the lowest free far frame of its ring position, with metadata for its blocks,
and this member writes the blocks of the pages that it holds (R186, R201). -/
def beginCopy (c h : Nat) (s : State) : State :=
  match s.req h with
  | none => s
  | some q =>
    let blocks := s.nBlocks c
    let mine := fun p => s.isLead c || s.holds c p
    let todo := (q.poolPages.filter mine).flatMap (fun p => (List.range blocks).map (fun b => (p, b)))
    let s := s.modReq h (fun q => { q with copying := true, copy := todo, farOf := [] })
    let s := foldS q.poolPages (fun s p =>
      let pos := s.pagePos c p
      let f := lowestFree (tgetD (s.tenant q.tenant).far pos [])
      let s := s.modTenant q.tenant (fun t => { t with far := tmod t.far pos [] (· ++ [f]) })
      let s := s.modKv c (fun k => { k with meta_ := tmod k.meta_ pos 0 (· + 24 * blocks) })
      s.modReq h (fun q => { q with farOf := tset q.farOf p f })) s
    if s.moves c then foldS todo (fun s e => farBlock c h e.1 e.2 s) s else s

/-- The free far frames of the tenant, by the lead's count, and the table region cover every pool page of a request, at
every ring position (R186, R201). -/
def State.farRoom (s : State) (c : Nat) (q : Req) : Bool :=
  (List.range (max 1 (s.ringSize c))).all (fun pos =>
    let n := (q.poolPages.filter (fun p => s.pagePos c p == pos)).length
    decide ((tgetD (s.tenant q.tenant).far pos []).length + n ≤ s.farFrames c q.tenant) &&
      decide (((24 * s.nBlocks c * n : Nat) : Int) ≤ s.tabFreeAt c pos))

/-- The lead decides on copy-out when a pause takes effect (R201). -/
def startCopy (c h : Nat) (s : State) : State :=
  match s.req h with
  | none => s
  | some q => if q.back == .queued || q.resv.isNone || !s.farRoom c q then s else beginCopy c h s

/-- A copy-out whose every block is written and acknowledged is complete: its entries change to loc 2, its frames are
freed and its reservation is returned (R185, R201). -/
def endCopy (c h : Nat) (s : State) : State :=
  match s.req h with
  | none => s
  | some q =>
    let s := foldS q.poolPages (fun s p => match tget q.pages p with
      | some (_, f) => freeFrame c (s.pagePos c p) f s
      | none => s) s
    s.modReq h (fun q => { q with copying := false, copy := [], out := true, resv := some [], resv0 := 0
                                  pages := q.farOf.foldl (fun t e => tset t e.1 (2, e.2)) q.pages })

/-- A pause takes effect: open blocks written out, PAUSE completed, copy-out decided (R200, R201). -/
def pauseNow (c h : Nat) (p : Pending) (s : State) : State :=
  let s := writeOpens c (fun o => o.handle == h) s
  let s := s.modReq h (fun q =>
    if q.phase == .paused then { q with pause := none, ttl := p.ttl, ttlFrom := s.pw.refTicks, lapsed := false }
    else { q with pause := none, back := q.phase, phase := .paused, ttl := p.ttl, ttlFrom := s.pw.refTicks, lapsed := false })
  let s := complete p.ring p.tag p.dindex 3 0 0 0 p.ttl 0 s
  match s.req h with
  | some q => if q.copying || q.out then s else startCopy c h s
  | none => s

/-- A request leaves PAUSED: its RESUME completes OK, restored pages take their frames (R204). -/
def leavePaused (c h : Nat) (s : State) : State :=
  match s.req h with
  | none => s
  | some q =>
    let s := if q.restoring then
        (freeFar q (s.modReq h (fun q => { q with
          pages := q.newOf.foldl (fun t e => tset t e.1 (1, e.2)) q.pages, farOf := [], newOf := [], restoring := false, retried := []
          out := false }))).modKv c (fun k => { k with far := k.far.filter (fun x => x.1 != h) })
      else s
    let s := s.modReq h (fun q => { q with phase := q.back, acting := none, lapsed := false })
    match q.acting with
    | some p => complete p.ring p.tag p.dindex 4 0 0 0 0 0 s
    | none => s

/-- A restore begins with a reservation of r frames at every position: every far page takes a new frame, and this
member reads the blocks of the pages that it holds (R204). -/
def beginRestore (c h r : Nat) (evs : Option (List Nat)) (s : State) : State :=
  match s.req h with
  | none => s
  | some q =>
    let rs := max 1 (s.ringSize c)
    let mine := fun p => s.isLead c || s.holds c p
    let s := s.modReq h (fun q => { q with
      resv := some ((List.range rs).map (fun p => (p, r))), resv0 := r, restoring := true
      restore := (q.farOf.filter (fun e => mine e.1)).flatMap (fun e => (List.range (s.nBlocks c)).map (fun b => (e.1, b))) })
    let s := foldS q.farOf (fun s e =>
      let pos := s.pagePos c e.1
      let x := allocFrame c pos evs s
      match x.1 with
      | some f => x.2.modReq h (fun q => { q with newOf := tset q.newOf e.1 f, resv := q.resv.map (fun t => tmod t pos 0 (· - 1)) })
      | none => if s.holds c e.1 then recordErr c .device 0 x.2 else x.2) s
    if s.moves c then askBlocks c h s else s

/-- The frames and the page-table chunks that a restore waits for are free (R186, R188).  A request that has taken its
chunks holds them until it ends. -/
def State.restoreFits (s : State) (c r : Nat) (q : Req) : Bool :=
  let room := if s.bounded q.tenant then s.availFrames c else s.availFrames c - s.boundedReserve c
  decide ((r : Int) ≤ room) && (q.chunked || decide ((q.chunkBytes : Int) ≤ s.tabFree c))

/-- A restore takes its reservation once R188 allows it, and its reads go out (R204). -/
def startRestore (c h : Nat) (s : State) : State :=
  match s.req h with
  | none => s
  | some q =>
    let r := s.resvFor c q.pagesAll (q.pages.filter (fun e => e.2.1 == 3)).length
    if s.restoreFits c r q then beginRestore c h r none s else s

/-- A copy-out is abandoned: every frame is still held (R204). -/
def abandonCopy (h : Nat) (s : State) : State :=
  match s.req h with
  | none => s
  | some q => (freeFar q s).modReq h (fun q => { q with copying := false, copy := [], farOf := [] })

/-- A RESUME acts on a paused request (R204). -/
def resumeNow (c h : Nat) (p : Pending) (s : State) : State :=
  let s := s.modReq h (fun q => { q with resume := none, acting := some p })
  match s.req h with
  | none => s
  | some q =>
    if q.phase != .paused then
      complete p.ring p.tag p.dindex 4 0 0 0 0 0 (s.modReq h (fun q => { q with acting := none }))
    else if q.copying then abandonCopy h s
    else if q.out then startRestore c h s
    else leavePaused c h s

/-- Row 5 of Table 7.6 for orders validated before the snapshot. -/
def actOrders (c h snap : Nat) (s : State) : State :=
  match s.req h with
  | none => s
  | some q =>
    let pa := q.pause.filter (fun p => decide (p.num < snap))
    let re := q.resume.filter (fun p => decide (p.num < snap))
    match pa, re with
    | none, none => s
    | some p, none => pauseNow c h p s
    | none, some r => resumeNow c h r s
    | some p, some r =>
      if p.num < r.num then
        resumeNow c h r (complete p.ring p.tag p.dindex 3 4 0 0 0 0 (s.modReq h (fun q => { q with pause := none })))
      else
        pauseNow c h p (complete r.ring r.tag r.dindex 4 4 0 0 0 0 (s.modReq h (fun q => { q with resume := none })))

/-- A request whose far block failed twice: the restore is abandoned, what it held is freed and returned, and it leaves
PAUSED for PREFILL over its prompt and generated tokens (R205); its page-table chunks it keeps until it ends (R186). -/
def rebuild (h : Nat) (s : State) : State :=
  match s.req h with
  | none => s
  | some q =>
    let c := q.cwy
    let s := dropKv h q s
    let s := s.modReq h (fun q => { q with
      phase := .prefill, acting := none, lapsed := false, rebuilding := true, len := 0, ready := false, chunk := []
      lookup := s.tenShare q.tenant && s.kvLayers c != 0, hits := [], prefix_ := 0, resv := none, resv0 := 0, pages := []
      farOf := [], newOf := [], restore := [], restoring := false, retried := [], out := false, lost := false
      cert := { q.cert with rebuilt := true } })
    let s := match q.acting with
      | some p => complete p.ring p.tag p.dindex 4 0 0 0 0 0 s
      | none => s
    lookNext h s

/-- A request whose RESUME acted at an earlier Keystone (R204). -/
def continueRestore (c h : Nat) (s : State) : State :=
  match s.req h with
  | none => s
  | some q =>
    if q.phase != .paused || q.acting.isNone then s
    else if q.lost then rebuild h s
    else if !q.out then leavePaused c h s
    else if q.restoring then (if q.restore.isEmpty then leavePaused c h s else s)
    else startRestore c h s

/-- A copy-out whose every block is acknowledged ends at the Keystone (R185, R201). -/
def settleCopy (c h : Nat) (s : State) : State :=
  match s.req h with
  | some q => if q.copying && q.copy.isEmpty then endCopy c h s else s
  | none => s

/-- Row 1 of Table 7.6: a request that has finished in the step ends. -/
def finishReq (h : Nat) (s : State) : State :=
  match s.req h with
  | some q => if q.finished then endReq h 1 s else s
  | none => s

/-- A paused request whose time-to-live has lapsed, with no RESUME validated before the snapshot (row 4 of Table 7.6). -/
def Req.expires (q : Req) (snap : Nat) : Bool :=
  q.phase == .paused && !q.resume.any (fun p => decide (p.num < snap)) && q.acting.isNone && q.lapsed

/-- Row 4 of Table 7.6 alone: in a hold no body runs, so that a lapse does not wait for its end (R203). -/
def expireReq (snap : Nat) (h : Nat) (s : State) : State :=
  match s.req h with
  | some q => if !q.isComp && q.expires snap then endReq h 7 s else s
  | none => s

/-- Rows 2 to 4 of Table 7.6; where the Carriageway stops here, row 3 ends the requests and row 4 is not reached. -/
def endOrders (snap : Nat) (stops : Bool) (h : Nat) (s : State) : State :=
  match s.req h with
  | none => s
  | some q =>
    if q.isComp then s
    else if (match q.cancel with | some p => decide (p.num < snap) | none => false) || q.hostFail then endReq h 2 s
    else if stops || (s.tenant q.tenant).unbinding then endReq h 8 s
    else if q.expires snap then endReq h 7 s
    else s

/-- Row 5 of Table 7.6 for one live request, and what its copy-out or restore has reached (R201, R204). -/
def meetOrders (c snap : Nat) (h : Nat) (s : State) : State :=
  match s.req h with
  | none => s
  | some q => if q.isComp then s else actOrders c h snap (continueRestore c h (settleCopy c h s))

/-! ### Wide mode (R41 to R46) -/

/-- Triggers of the step just committed, as the layer table gives their thresholds. -/
def wideTriggers (c : Nat) (s : State) : State :=
  let r := (s.cwy c).run
  let n := (s.cwy c).life.step
  foldS (List.range (s.layerCount c)) (fun s l =>
    let ol := s.layerf c l 0 2; let st := s.layerf c l 2 2
    let clips := tgetD r.layClips l 0
    let sats := if r.grants.contains l then 0 else tgetD r.laySats l 0
    if (ol != 0 && decide (ol ≤ clips)) || (st != 0 && decide (st ≤ sats)) then
      s.modCwy c (fun x => { x with wide := tmod x.wide l {} (fun w => { w with last := some (n + s.layerf c l 4 1) }) })
    else s) s

/-- Grants for a step (R43), with denial counts and advisories (R46). -/
def wideGrants (c n : Nat) (s : State) : State :=
  let standing := ((s.cwy c).wide.filter (fun e => match e.2.last with | some m => decide (n ≤ m) | none => false)).map (·.1)
  let granted := standing.take (s.wideBudget c)
  let denied := standing.drop (s.wideBudget c)
  let s := s.modCwy c (fun x => { x with wide := (x.wide.filter (fun e => standing.contains e.1)).map (fun e =>
    (e.1, if granted.contains e.1 then { e.2 with denied := 0 } else { e.2 with denied := e.2.denied + 1 })) })
  let s := s.modRun c (fun r => { r with grants := granted, denials := denied })
  foldS denied (fun s l =>
    if (tgetD (s.cwy c).wide l {}).denied == 64 then
      post 0x12 0xFF (leBytes 1 c ++ leBytes 1 l)
        (s.modCwy c (fun x => { x with wide := tmod x.wide l {} (fun w => { w with denied := 0 }) }))
    else s) s

/-! ### Energy (R308) -/

/-- The ring of a request's SUBMIT: a companion's is that of the request whose draft it makes (R173). -/
def State.ringOf (s : State) (h : Nat) (q : Req) : Nat :=
  if q.isComp then ((s.reqs.find? (fun e => e.2.companion == some h)).map (·.2.par.ring)).getD q.par.ring else q.par.ring

/-- The lead splits the job's energy among the rings of the step's requests by token positions.  DESIGN CHOICE: a
companion's part goes to the ring of its request (log 183). -/
def splitEnergy (pj : Nat) (adm : List Adm) (s : State) : State :=
  let total := (adm.map (·.tokens)).sum
  if total = 0 then s
  else foldS adm (fun s a => match s.req a.handle with
    | some q => s.modEn (fun e => { e with ringPj := tmod e.ringPj (s.ringOf a.handle q) 0 (· + pj * a.tokens / total) })
    | none => s) s

/-! ### Deferred changes (R122 item 5) -/

/-- A tenant's Spandrel switches to a READY slot (R223). -/
def switchSpandrel (n : Nat) (s : State) : State :=
  let x := s.sp n
  if x.state != 2 then s
  else
    let t := x.tenant
    let old := (List.range 256).filter (fun m => m != n && (s.sp m).state == 3 && (s.sp m).tenant == t)
    let s := foldS old (fun s m => retireSlot m s) s
    let s := foldS ((List.range 256).filter (fun m => ((s.sp m).state == 2 || (s.sp m).state == 1) && (s.sp m).tenant == t &&
        decide ((s.sp m).num < x.num)))
      (fun s m =>
        let s := supersedeSp m s
        let s := s.modW (s.sp m).cwy (fun w => { w with spLoads := w.spLoads.filter (fun l => l.slot != m) })
        s.modSp m (fun _ => {})) s
    let s := s.modTenant t (fun y => { y with spEn := true, spandrel := n })
    let s := match x.order with
      | some o => complete o.1 o.2.2 o.2.1 9 0 0 0 n x.version s
      | none => s
    s.modSp n (fun y => { y with state := 3, order := none })

/-- Retirements that wait for a good seal (R225). -/
def retirePending (c : Nat) (s : State) : State :=
  foldS ((List.range 256).filter (fun n => (s.sp n).retiring && (s.sp n).cwy == c)) (fun s n =>
    let t := (s.sp n).tenant
    let s := if (s.sp n).state == 3 then s.modTenant t (fun y => { y with spEn := false }) else s
    retireSlot n s) s

/-- The slew of one glide step begins, applied at a Carriageway's Keystone or on an idle device (R299, R301). -/
def startSlew (up : Bool) (of : Option Nat) (s : State) : State := s.modPw (fun p => { p with slew := some up, slewOf := of, frozen := p.droop != 0 || p.floor })

/-- Takeovers whose spare is complete move the remap at the good seal of a takeover Keystone (R77, R261). -/
def moveRemaps (c : Nat) (s : State) : State :=
  foldS (s.ras.pend.filter (fun f => f.spareDone && s.unitUsed c f.unit)) (fun s f =>
    match f.unit, f.spare with
    | .pier sp b p, some x =>
      if (s.pier (bayNo sp b) p).state == 3 then
        let s := match s.logicalOf (bayNo sp b) p with
          | some l => if x == 255 then s else ledgerUnit 3 0 x f.unit (moveMap (bayNo sp b) l x s)
          | none => s
        startQueued 40 (s.modRas (fun r => { r with
          pend := r.pend.filter (· != f), running := r.running.filter (fun d => d.unit != f.unit) }))
      else s
    | _, _ => s) s

/-- Fences that take effect at a Keystone not followed by a replay (R260, R263). -/
def fencesTake (c : Nat) (s : State) : State :=
  foldS (s.ras.pend.filter (fun f => s.unitUsed c f.unit && (s.cwy c).key.fences.contains f.unit)) (fun s f =>
    match f.unit with
    | .pier sp b p =>
      if (s.pier (bayNo sp b) p).state == 3 then s
      else
        match f.spare with
        | some x =>
          let s := foldS ((List.range 64).filter (fun k => s.unitUsed k f.unit)) (fun s k => retract f.unit k s) s
          let s := markFenced f.unit x s
          if x == 255 then startQueued 40 (s.modRas (fun r => { r with pend := r.pend.filter (· != f), running := r.running.filter (fun d => d.unit != f.unit) }))
          else s
        | none => fenceFree f.unit none s
    | _ => fenceFree f.unit f.spare s) s

/-- Staged trims of the Bays in the Carriageway's grant take effect (R282). -/
def trimsTake (c : Nat) (s : State) : State :=
  foldS (s.bays.filter (fun e => s.grantsBay c e.1)) (fun s e => foldS (e.2.piers.map (·.1)) (fun s p => takeTrims e.1 p s) s) s

/-- Slots that a release switches, the newest order first: it supersedes older ones of its tenant (R223). -/
def State.switches (s : State) (c : Nat) (ns : List Nat) : List Nat :=
  (ns.filter (fun n => (s.sp n).cwy == c)).foldr (fun n acc =>
    (acc.takeWhile (fun m => decide ((s.sp n).num < (s.sp m).num))) ++ n :: (acc.dropWhile (fun m => decide ((s.sp n).num < (s.sp m).num)))) []

/-- Every change of R122 item 5 that a good seal applies, the orders on requests and the remaps of takeovers apart. -/
def item5 (c : Nat) (rel : Release) (s : State) : State :=
  let s := trimsTake c s
  let s := foldS (s.switches c rel.spCurrent) (fun s n => switchSpandrel n s) s
  let s := retirePending c s
  let s := foldS rel.spFree (fun s n => if (s.sp n).state == 4 then s.modSp n (fun _ => {}) else s) s
  if rel.glide && s.glideOwner == some c then startSlew rel.glideUp (some c) s else s

/-! ### The commit of a release (items 1 to 4) -/

/-- vec_tok of rings whose requests committed tokens (R384). -/
def tokRings (before : State) (s : State) (adm : List Adm) : List Nat :=
  (adm.filterMap (fun a => match before.req a.handle with
    | some q => if q.isComp then none
      else match s.req a.handle with
        | some x => if x.gen.length != q.gen.length then some q.par.ring else none
        | none => some q.par.ring
    | none => none)).eraseDups

/-- A change over every live request of the Carriageway, in ascending sequence number. -/
def eachReq (c : Nat) (f : Nat → State → State) (s : State) : State := foldS ((s.liveReqs c).map (·.1)) (fun s h => f h s) s

/-- A member that is not the lead does to a tracked request's pages what the lead decided (Table 8.2 rows 2 to 4).
DESIGN CHOICE: how it learns it the spec does not say (log 148). -/
def kvAct (c : Nat) (evs : List Nat) (a : KvAct) (s : State) : State :=
  match a with
  | .node h page => setNode c h page [] [] s
  | .ended h =>
    let s := if (s.req h).isNone then foldS (tgetD (s.cwy c).kv.pins h []) (fun s n => dropRef c n s) s else s
    endReq h 0 (s.modKv c (fun k => { k with pins := tdel k.pins h }))
  | .pin h n => pinNode c n (s.modKv c (fun k => { k with pins := tmod k.pins h [] (· ++ [n]) }))
  | .pause h t co =>
    let s := writeOpens c (fun o => o.handle == h) (s.modReq h (fun q => { q with tenant := t, phase := .paused }))
    if co then beginCopy c h s else s
  | .copied h => endCopy c h s
  | .abandon h => abandonCopy h s
  | .restore h => beginRestore c h 0 (some evs) s
  | .leave h => leavePaused c h s
  | .rebuilt h => (match s.req h with
    | some q => (dropKv h q s).modReq h (fun q => { q with
        phase := .prefill, len := 0, hits := [], resv := none, pages := [], farOf := [], newOf := [], restore := [], restoring := false, out := false
        lost := false, retried := [] })
    | none => s)
  | .chunks h n => s.when (s.req h).isSome (growChunks c h n)
  | .evict _ => s

/-- The nodes that the lead evicts. -/
def evictions (acts : List KvAct) : List Nat := acts.filterMap (fun a => match a with | .evict n => some n | _ => none)

/-- A prefix node's act, which stands in row 2 of Table 8.2; the others stand in rows 3 and 4. -/
def isNodeAct : KvAct → Bool
  | .node _ _ => true
  | _ => false

/-- Page-table chunks are taken in row 5, with the reservation. -/
def isChunkAct : KvAct → Bool
  | .chunks _ _ => true
  | _ => false

/-- Orders of Table 7.6 beyond row 1, endings before pauses and resumes (Table 8.2 rows 3 and 4): by the lead's own
judgement, or as the lead decided them. -/
def allOrders (c : Nat) (stops : Bool) (acts : List KvAct) (s : State) : State :=
  if s.isLead c then
    let snap := (s.cwy c).key.snap
    let s := eachReq c (endOrders snap stops) s
    if stops then s else eachReq c (meetOrders c snap) s
  else foldS (acts.filter (fun a => !isNodeAct a && !isChunkAct a)) (fun s a => kvAct c (evictions acts) a s) s

/-- The orders at a Keystone: where its release grants a hold, the lead leaves them for the hold's end, but for lapses (R203,
R217), and another member does what the lead has decided so far (R198). -/
def keystoneOrders (c : Nat) (hold stops : Bool) (acts : List KvAct) (s : State) : State :=
  if hold && s.isLead c then eachReq c (expireReq (s.cwy c).key.snap) s else allOrders c stops acts s

/-- The admission of the step in ascending slot (R192). -/
def Run.slots (r : Run) : List Adm :=
  r.adm.foldr (fun a acc => (acc.takeWhile (fun b => decide (b.slot < a.slot))) ++ a :: (acc.dropWhile (fun b => decide (b.slot < a.slot)))) []

/-- This release stops the Carriageway for good: its live requests end at this Keystone (R153, R154). -/
def State.endsHere (s : State) (c : Nat) (rel : Release) : Bool := rel.stop && (decide (rel.stopCause < 3) || (s.cwy c).life.state == .stopping)

/-- Items 1 to 5 of R122 on requests at a step Keystone with a good seal, in its order: entries and full pages (rows 1
and 2 of Table 8.2), token data and the requests that finish, wide mode, and the orders (rows 3 and 4), which wait for
the end of a hold that the release grants (R217).  The step number advances last. -/
def commitStep (c : Nat) (rel : Release) (acts : List KvAct) (s : State) : State :=
  let adm := (s.cwy c).run.slots
  let lead := s.isLead c
  let acc := fun (a : Adm) => rel.commit.getD a.slot 0xFF
  let cnt := adm.map (fun a => (a, s.commitCount c a (acc a)))
  let s := foldS cnt (fun s e => commitSlot c e.1 e.2 s) s
  let s := s.modKv c (fun k => { k with staged := [] })
  let b := s
  let v := (s.cwy c).key.merged
  let s := if lead then foldS adm (fun s a => commitReq c v a (acc a) s) s else s
  let s := foldS cnt (fun s e => fillPages c e.1 e.2 s) s
  let s := if lead then s else foldS (acts.filter isNodeAct) (fun s a => kvAct c [] a s) s
  let s := if lead then foldS adm (fun s a => match b.req a.handle with
    | some q => giveReq c a (acc a) q s
    | none => s) s else s
  let s := if lead then splitEnergy (v.energy * 1000000 + (s.cwy c).key.carryPj) adm s else s
  let s := s.modKey c (fun k => { k with carryPj := 0 })
  let s := s.modHost (fun h => { h with tokDue := ((tokRings b s adm).map s.vecTok).eraseDups })
  let s := if lead then eachReq c finishReq s else s
  let n := (s.cwy c).life.step
  let s := wideGrants c (n + 1) (wideTriggers c s)
  let s := keystoneOrders c rel.holdGranted (s.endsHere c rel) acts s
  s.modLife c (fun l => { l with step := n + 1, sealed := l.sealed + 1 })

/-- A good Keystone without a body: orders are resolved, nothing of a run is committed (R170, R439). -/
def commitIdle (c : Nat) (rel : Release) (acts : List KvAct) (s : State) : State :=
  keystoneOrders c (rel.holdGranted && (s.cwy c).key.kind != 3) (s.endsHere c rel) acts s

/-- A member's report of accuracy-reduced operation in a run that commits nothing stays with its requests (R246). -/
def keepAcc (c : Nat) (s : State) : State :=
  if (s.cwy c).key.merged.accRed then
    foldS (s.cwy c).run.adm (fun s a => s.modReq a.handle (fun q => { q with cert := { q.cert with accRed := true } })) s
  else s

/-- Orders and requests of a failed replay: every member ends the step's requests (R242). -/
def abortStep (c : Nat) (s : State) : State :=
  let k := (s.cwy c).key
  let s := keepAcc c (s.modLife c (fun l => { l with aborts := l.aborts + 1 }))
  let s := foldS (s.cwy c).run.adm (fun s a => endReq a.handle 6 s) s
  let s := s.modKv c (fun k => { k with staged := [] })
  s.modKey c (fun x => { x with carryPj := k.carryPj + k.merged.energy * 1000000 })

/-- A bad seal: what the run staged is discarded, and the replay that it orders, unless it stops the Carriageway, is
counted (R123, R241). -/
def discardRun (c : Nat) (stops : Bool) (s : State) : State :=
  let k := (s.cwy c).key
  let n := b2n (!stops)
  let s := foldS (s.cwy c).run.adm (fun s a => s.modReq a.handle (fun q => { q with cert := { q.cert with replays := q.cert.replays + n } })) (keepAcc c s)
  let s := s.modKv c (fun k => { k with staged := [] })
  let s := s.modLife c (fun l => { l with replays := l.replays + n })
  s.modKey c (fun x => { x with carryPj := k.carryPj + k.merged.energy * 1000000 })

/-- What a release commits, or what a bad seal leaves of it. -/
def applyCommit (c : Nat) (rel : Release) (acts : List KvAct) (s : State) : State :=
  let k := (s.cwy c).key
  if rel.failed then abortStep c s
  else if !rel.good then (if k.kind == 0 then discardRun c rel.stop s else s)
  else if k.kind == 0 then commitStep c rel acts s
  else commitIdle c rel acts s

/-! ### Rows 5 to 7 of Table 8.2 -/

/-- The nodes from a deepest node up to page 0, in page order. -/
def chainOf (ns : Tab Node) (fuel n : Nat) : List Nat :=
  match fuel with
  | 0 => []
  | k + 1 => match tget ns n with
    | some x => chainOf ns k x.parent ++ [n]
    | none => []

/-- The number under which a member keeps a request of a job: on the lead its Tollhouse handle, elsewhere one of its own
that no Tollhouse handle of this device and no other job's request has. -/
def State.reqKey (s : State) (c h : Nat) : Nat := if s.isLead c then h else 2 ^ 32 * (c + 1) + h

/-- The same for what the lead decided. -/
def State.actKey (s : State) (c : Nat) : KvAct → KvAct
  | .node h p => .node (s.reqKey c h) p
  | .ended h => .ended (s.reqKey c h)
  | .pause h t co => .pause (s.reqKey c h) t co
  | .copied h => .copied (s.reqKey c h)
  | .abandon h => .abandon (s.reqKey c h)
  | .restore h => .restore (s.reqKey c h)
  | .leave h => .leave (s.reqKey c h)
  | .rebuilt h => .rebuilt (s.reqKey c h)
  | .evict n => .evict n
  | .pin h n => .pin (s.reqKey c h) n
  | .chunks h n => .chunks (s.reqKey c h) n

/-- A member that is not the lead tracks a request from the record that admits it (R156). -/
def trackReq (c : Nat) (a : Adm) (s : State) : State :=
  let q : Req := { cwy := c, tenant := 0, tracked := true, seq := a.handle
                   par := { ring := 0xFFFFFFFF, dindex := 0, tag := [], prompt := 0, promptLen := a.first + a.tokens, maxNew := 0, stops := []
                            sampled := a.sampled, temp := a.temp, topk := a.topk, seed := [], drawn := false, draft := false, buf := 0 }
                   hits := chainOf (s.cwy c).kv.nodes (s.cwy c).kv.nodes.length a.node, inserting := true }
  let s := match s.req a.handle with
    | some o => releaseKv a.handle o s
    | none => s
  let pinned := tgetD (s.cwy c).kv.pins a.handle []
  let s := foldS (q.hits.filter (fun n => !pinned.contains n)) (fun s n => pinNode c n s) s
  let s := foldS (pinned.filter (fun n => !q.hits.contains n)) (fun s n => dropRef c n s) s
  { s.modKv c (fun k => { k with pins := tdel k.pins a.handle }) with reqs := tset s.reqs a.handle q }

/-- A first chunk that a stopped Carriageway had released and releases again finds its request bound: nothing is taken
twice (R154, R186, R187). -/
def State.boundAlready (s : State) (c : Nat) (a : Adm) : Bool :=
  match s.req a.handle with
  | none => false
  | some q =>
    if s.isLead c then q.chunked && q.resv.isSome
    else q.tracked && q.resv.isSome && q.phase == .prefill && q.len == a.first && q.hits == chainOf (s.cwy c).kv.nodes (s.cwy c).kv.nodes.length a.node

/-- A first chunk is released: lookups bound, reservation taken (row 5, R187, R195). -/
def bindFirst (c : Nat) (a : Adm) (s : State) : State :=
  if s.boundAlready c a then s else
  let s := if s.isLead c then s else trackReq c a s
  match s.req a.handle with
  | none => s
  | some q =>
    let rs := max 1 (s.ringSize c)
    let r := s.resvFor c q.pagesAll q.hits.length
    let st := (s.cwy c).life.step
    let s := s.modReq a.handle (fun q => { q with
      pages := (List.range q.hits.length).foldl (fun t k => tset t k (3, q.hits.getD k 0)) q.pages
      len := a.first, prefix_ := if q.rebuilding then q.prefix_ else a.first, phase := if q.phase == .queued then .prefill else q.phase
      resv := if s.kvLayers c = 0 then none else some (if q.tracked then [] else (List.range rs).map (fun p => (p, r)))
      resv0 := if s.kvLayers c = 0 || q.tracked then 0 else r, chunked := s.kvLayers c != 0 && !q.tracked
      cert := { q.cert with first := match q.cert.first with | some x => some x | none => some st } })
    let s := if s.kvLayers c = 0 || q.tracked then s else growChunks c a.handle (1 + ceilDiv q.pagesAll 1024) s
    s.modKv c (fun k => { k with chunks := if s.kvLayers c = 0 || q.tracked || q.chunked then k.chunks else k.chunks + q.chunkBytes
                                 nodes := k.nodes.map (fun e => if q.hits.contains e.1 then (e.1, { e.2 with lastUse := st }) else e) })

/-- Frames for the positions of an admission record (row 6, R187, R189). -/
def allocSlot (c : Nat) (evs : Option (List Nat)) (a : Adm) (s : State) : State :=
  if s.kvLayers c = 0 || a.tokens = 0 then s
  else
    let p0 := a.first / 16; let p1 := (a.first + a.tokens - 1) / 16
    foldS ((List.range (p1 + 1)).filter (fun p => decide (p0 ≤ p))) (fun s p =>
      match s.req a.handle with
      | none => s
      | some q =>
        if (tget q.pages p).isSome then s
        else
          let pos := s.pagePos c p
          let x := allocFrame c pos evs s
          match x.1 with
          | some f => x.2.modReq a.handle (fun q => { q with pages := tset q.pages p (1, f), resv := q.resv.map (fun t => tmod t pos 0 (· - 1)) })
          | none => if s.holds c p then recordErr c .device 0 x.2 else x.2) s

/-- A rebuilt request's first chunk: a PREFILL record of a request that holds no reservation (R205). -/
def State.unbound (s : State) (c : Nat) (a : Adm) : Bool :=
  a.phase == 1 && s.kvLayers c != 0 && (match s.req a.handle with
    | some q => q.resv.isNone
    | none => false)

/-- The next admission takes hold on a member: rows 5 to 7 of Table 8.2.  DESIGN CHOICE: row 6 takes frames in the order of the
admission records (log 208). -/
def applyAdmission (c : Nat) (rel : Release) (acts : List KvAct) (s : State) : State :=
  let evs := if s.isLead c then none else some (evictions acts)
  let s := foldS (rel.adm.filter (fun a => a.phase == 2 || s.unbound c a)) (fun s a => bindFirst c a s) s
  let s := if s.isLead c then s else foldS rel.adm (fun s a => s.modReq a.handle (fun q => { q with len := a.first })) s
  let s := if s.isLead c then s else foldS (acts.filter isChunkAct) (fun s a => kvAct c [] a s) s
  let s := foldS rel.adm (fun s a => allocSlot c evs a s) s
  let s := foldS (evs.getD []) (fun s n => evictNode c n s) s
  writeOpens c (fun o => !rel.adm.any (fun a => a.handle == o.handle)) s

end Sys2Proof.Machine
end

