-- ==== Sys2Proof/Machine/WeightOps.lean ====
section
/-! DEFINITION. Pier images, bulk writes and layers as shared operations (R73, R74, R208 to R221). -/

namespace Sys2Proof.Machine

/-- CRC-32C of an image holds (R208). -/
def imageSound (m : Mem) : Bool := crc32c (memBytes m 0 138236) == memLe m 138236 4

/-- A bulk write completes: the Pier holds the image and is READY, its refresh age restarts (R73, R74), and the
next bulk write of the Bay begins.  The Bay keeps the mode that its first programmed Pier gave it (R52). -/
def programPier (bn p : Nat) (img : Mem) (s : State) : State :=
  let s := noteAcc s
  let t := s.pw.refTicks
  let s := if (s.bay bn).programmed p then s else s.modBay bn (fun y => { y with mode := some (imageMode img) })
  noteAcc <| dropBulk bn p (s.modPier bn p (fun x => if x.state == 3 then x else
    { x with state := 2, img := img, lastRefresh := t, overdue := false, refreshRow := none, refreshBuf := none, retried := false
             live := 0, marks := [] }))

/-- The weight-set digest in effect (R211): 64 zero bytes while nothing is loaded. -/
def Weights.wset (w : Weights) : Bytes :=
  if w.nModel = 0 then zeros 64 else shake 64 ((List.range w.nModel).flatMap (fun l => slice (tgetD w.digests l []) 0 64))

/-- The version vector in effect. -/
def Weights.vector (w : Weights) : List Nat := (List.range w.nModel).map (fun l => tgetD w.versions l 0)

/-- A version change recorded for the live requests of a Carriageway (R221, R247). -/
def noteVersion (c model version : Nat) (s : State) : State :=
  let st := (s.cwy c).life.step
  foldS ((s.liveReqs c).map (·.1)) (fun s h => s.modReq h (fun q =>
    { q with inserting := false, cert := if q.cert.vchg.length < 4096 then { q.cert with vchg := q.cert.vchg ++ [(st, model, version)] }
                                         else { q.cert with vTrunc := true } })) s

/-- The Pier descriptors of a layer name its shadows (R73, R215, R217). -/
def setDescs (c l : Nat) (y : LayerW) (s : State) : State :=
  foldS y.piers (fun s e => s.modBay (bayNo e.1.1 e.1.2.1) (fun b => { b with desc := tset b.desc e.1.2.2 (c, l, e.2) })) s

/-- Layers not carried take over a bundle's table where there is no weight set yet, whose M is then the bundle's (R211, R214
step 7).  The versions stand for the version vector; a layer never carried has none that step 3 of R214 compares. -/
def Weights.adopt (w : Weights) (models version : Nat) (table : List Bytes) : Weights :=
  if w.nModel != 0 then w
  else { w with nModel := models
                digests := (List.range models).map (fun m => (m, table.getD m []))
                versions := (List.range models).map (fun m => (m, version)) }

/-- A staged layer takes effect: descriptors flipped, digest and version set, wide state cleared (R217, R47); the weight
set has the M of its bundle (R211).  DESIGN CHOICE: a wide grant that the Keystone has already decided for the next step
stands: the run's grants are kept (R47; log 191). -/
def installLayer (c l : Nat) (s : State) : State :=
  match tget (s.cwy c).w.staged l with
  | none => s
  | some y =>
    let s := ((setDescs c l y s).modW c (·.adopt y.models y.version y.table)).modW c (fun w => { w with
      layers := tset w.layers l y, staged := tdel w.staged l, nModel := y.models
      digests := tset w.digests y.model y.digest, versions := tset w.versions y.model y.version })
    let s := s.modCwy c (fun x => { x with wide := tdel x.wide l })
    noteVersion c y.model y.version s

/-- The spare that is to take a mapped Pier over, while its remap waits (R77, R261). -/
def State.heir (s : State) (bn p : Nat) : Option Nat :=
  (s.ras.pend.find? (fun f => f.unit == .pier (bn / 256) (bn % 256) p)).bind (fun f => f.spare.filter (· != 255))

/-- Whether the spare of a takeover that waits is complete. -/
def spareSet (bn x : Nat) (done : Bool) (s : State) : State :=
  s.modRas (fun r => { r with pend := r.pend.map (fun f =>
    if f.spare == some x && (match f.unit with | .pier a b _ => bayNo a b == bn | _ => false) then { f with spareDone := done } else f) })

/-- The Piers programmed in a Bay, or the bulk write that it awaits, have another weight mode than an image (R52). -/
def State.modeClash (s : State) (bn mode : Nat) : Bool :=
  if (s.bay bn).programmed 17 then (s.bay bn).mode != some mode
  else match (s.bay bn).bulk with
    | e :: _ => s.modeAt e.2.src != mode
    | [] => false

/-- Some image of a layer has another weight mode than its Bay (R52). -/
def State.layerClash (s : State) (y : LayerW) : Bool := y.piers.any (fun e => s.modeClash (bayNo e.1.1 e.1.2.1) (s.modeAt e.2))

/-- Shadows of a layer are bulk-written into their Piers, a FENCED one apart, and into the spares that are to take such
Piers over (R77). -/
def writePiers (c why : Nat) (y : LayerW) (s : State) : State :=
  foldS y.piers (fun s e =>
    let bn := bayNo e.1.1 e.1.2.1
    let p := s.phys bn e.1.2.2
    let b : Bulk := { src := e.2, cwy := c, why := why, logical := e.1.2.2 }
    let s := if s.pstate bn p == 3 then s else startBulk bn p b s
    match s.heir bn p with
    | some x => startBulk bn x b (spareSet bn x false s)
    | none => s) s

/-- A pending REPLACE_LAYER completes (Table 15.7). -/
def endReplace (c status reason a : Nat) (s : State) : State :=
  match (s.cwy c).w.replace with
  | none => s
  | some r =>
    let s := s.modW c (fun w => { w with replace := none, wstate := if w.layers.isEmpty then w.wstate else 2, holdLayer := 255 })
    complete r.ring r.tag r.dindex 8 status reason 0 a 0 s

/-- A pending REPLACE_LAYER will be refused: a bad shadow's reason stands before that of a missing spare (R220). -/
def failReplace (c code : Nat) (s : State) : State :=
  s.modW c (fun w => { w with replace := w.replace.map (fun r => { r with code := max r.code code }) })

/-- The bulk writes of a staged layer begin (R217).  One whose images have another weight mode than their Bays by now is not
written, and the order will be refused (R52; log 176). -/
def startLayer (c l : Nat) (s : State) : State :=
  match tget (s.cwy c).w.staged l with
  | none => s
  | some y => if s.layerClash y then failReplace c 0x71 s else writePiers c 2 y s

/-- A staged shadow has failed its CRC-32C twice (R220): the shadow-CRC event, the counts of R70 and the layer to be
reloaded.  Its Pier is not written. -/
def badShadow (c l span bay logical p : Nat) (s : State) : State :=
  let bn := bayNo span bay
  let was := match tget (s.bay bn).bulk p with | some w => w.was | none => (s.pier bn p).state
  let s := { s with refreshRetry := satAdd 16 s.refreshRetry 1, refreshFail := satAdd 16 s.refreshFail 1 }
  let s := post 0x20 span (leBytes 1 c ++ leBytes 1 bay ++ leBytes 1 logical) s
  let s := dropBulk bn p (s.modPier bn p (fun x => { x with state := if x.state == 1 then was else x.state }))
  failReplace c 0x72 (s.modW c (fun w => { w with badLayer := l }))

/-- A bulk-written Pier has failed its read-back: its event (R254), its fence, and the spare for its logical Pier, if its
Bay has one (R220, R260). -/
def fenceWritten (span bay phys logical : Nat) (s : State) : Option Nat × State :=
  let bn := bayNo span bay
  let u : WinUnit := .pier span bay phys
  let s := eventNow u 3 0 (dropBulk bn phys s)
  let sp := s.sparePhys bn
  let s := fenceFree u (some sp) (dropPass bn sp s)
  if sp == 31 || s.phys bn logical != phys then (none, s) else (some sp, ledgerUnit 3 0 sp u (moveMap bn logical sp s))

/-- A bulk write's Pier is programmed; the spare of a takeover that waits is complete with it. -/
def goodBulk (span bay phys : Nat) (img : Mem) (s : State) : State :=
  spareSet (bayNo span bay) phys true (programPier (bayNo span bay) phys img s)

/-- A bulk write of a load or of a replacement failed its read-back: the spare is written in the same way, or the
replacement fails (R220). -/
def failBulk (span bay phys : Nat) (b : Bulk) (s : State) : State :=
  let x := fenceWritten span bay phys b.logical s
  match x.1 with
  | some sp => startBulk (bayNo span bay) sp { b with on := false } x.2
  | none => if b.why = 2 then failReplace b.cwy 0x1B x.2 else x.2

/-- The spare of a takeover that waits failed its read-back, or its shadow failed its CRC-32C: the spare's own event and
fence, and no spare for the takeover (R254, R262).  DESIGN CHOICE: R77 only makes the move wait for the CRC-32C check,
and R262 speaks of the read-back alone (log 173). -/
def failSpare (span bay phys : Nat) (s : State) : State :=
  let bn := bayNo span bay
  let u : WinUnit := .pier span bay phys
  let before := s.ras.demands.length
  let s := eventNow u 3 0 (dropBulk bn phys s)
  if before < s.ras.demands.length then s
  else
    let mapped := (s.logicalOf bn phys).isSome
    let s := (markFenced u 255 s).when mapped (stopUsers u)
    let mine := fun (f : PendFence) => f.spare == some phys && (match f.unit with | .pier a b _ => a == span && b == bay | _ => false)
    let gone := fun (f : PendFence) => mine f && s.outOfService f.unit
    let s := foldS (s.ras.pend.filter gone) (fun s f => stopUsers f.unit s) s
    startQueued 40 (s.modRas (fun r => { r with
      running := r.running.filter (fun d => !(r.pend.any (fun f => gone f && f.unit == d.unit)))
      pend := (r.pend.filter (fun f => !gone f)).map (fun f => if mine f then { f with spare := none } else f) }))

/-- A bulk write of a Bay ends: its Pier is programmed, or the shadow or the Pier has failed (R70, R77, R220, R262).  Of the
flits whose CRC failed (R14), those on their way to the loader make it read the shadow once more, and those on their way to the
Pier stand in it as they arrived, so that its CRC-32C comparison fails (R74; log 213). -/
def endBulk (span bay phys : Nat) (readBack : Bool) (b : Bulk) (fail : ReadFail) (s : State) : State :=
  let fail := upTo imageLen fail
  let late := fail.crc.filter (fun e => e.link != abutLink)
  let shadow := s.unitRead b.src imageLen { fail with crc := [] }
  let img := patch shadow late
  let sound := imageSound shadow
  let readBack := readBack && (late.isEmpty || imageSound img)
  let s := unitReads (some b.cwy) b.src imageLen fail s
  let s := if late.length = fail.crc.length then s else { s with refreshRetry := satAdd 16 s.refreshRetry 1 }
  let spare := s.ras.pend.any (fun f => f.spare == some phys && (match f.unit with | .pier x y _ => x == span && y == bay | _ => false))
  if readBack && sound then goodBulk span bay phys img s
  else if !sound && b.why = 2 then badShadow b.cwy ((s.cwy b.cwy).w.nextLayer.getD 255) span bay b.logical phys s
  else if b.why = 1 || spare then
    let s := failSpare span bay phys s
    if b.why = 2 then failReplace b.cwy 0x1B s else s
  else failBulk span bay phys b s

/-- The bulk writes of one physical Pier in a hold, and of the spares that take its place, that have not ended: the first
n of them fail their read-back (R220). -/
def finishPier (fuel span bay phys n : Nat) (s : State) : State :=
  match fuel, tget (s.bay (bayNo span bay)).bulk phys with
  | k + 1, some b =>
    let s := endBulk span bay phys (n == 0) b {} s
    let p := s.phys (bayNo span bay) b.logical
    if n = 0 || p == phys then s else finishPier k span bay p (n - 1) s
  | _, _ => s

/-- The bulk writes of one layer of a hold that have not ended do: each Pier fails its read-back as often as it is named,
the spare taking its place each time, or the order fails (R220). -/
def finishLayer (c l : Nat) (failed : List (Nat × Nat × Nat)) (s : State) : State :=
  match tget (s.cwy c).w.staged l with
  | none => s
  | some y => foldS y.piers (fun s e =>
      let bn := bayNo e.1.1 e.1.2.1
      let p := s.phys bn e.1.2.2
      let h := s.heir bn p
      let s := finishPier 3 e.1.1 e.1.2.1 p (failed.count e.1) s
      match h with
      | some x => finishPier 1 e.1.1 e.1.2.1 x 0 s
      | none => s) s

/-- A layer of a pending REPLACE_LAYER is replaced: its descriptors flip (R217). -/
def layerDone (c l : Nat) (s : State) : State :=
  (installLayer c l s).modW c (fun w => { w with replace := w.replace.map (fun r => { r with done := r.done + 1 }), holdLayer := 255
                                                 wstate := if w.wstate == 4 then 3 else w.wstate })

/-- A REPLACE_LAYER that failed completes REFUSED, and its Carriageway stops (R220). -/
def refuseReplace (c : Nat) (s : State) : State :=
  match (s.cwy c).w.replace with
  | some r => if r.code = 0 then s else askStop c (if r.code = 0x72 then 3 else 4) (endReplace c 5 r.code 0 s)
  | none => s

/-- The layer of a hold is written and flipped (R217, R220). -/
def replaceOne (c : Nat) (failed : List (Nat × Nat × Nat)) (s : State) : State :=
  match (s.cwy c).w.nextLayer with
  | none => s
  | some l =>
    let clash := match (s.cwy c).w.replace with | some r => r.code == 0x71 | none => false
    refuseReplace c (if clash then s else layerDone c l (finishLayer c l failed s))

end Sys2Proof.Machine
end

