-- ==== Sys2Proof/Machine/Keystone.lean ====
section
/-! DEFINITION. The Keystone: votes, seal, release, body start, ramp and ballast (sections 5, 7, 10, 14). -/

namespace Sys2Proof.Machine

/-! ### Calibration currency (R286) -/

/-- Bays that have ceased to be current post a calibration-stale event. -/
def staleCheck (s : State) : State :=
  noteCurrent <| foldS ((s.bays.filter (fun e => e.2.wasCurrent && !s.calCurrent e.1)).map (·.1)) (fun s b =>
    post 0x31 (b / 256) ([0] ++ leBytes 1 (b % 256)) (s.modBay b (fun x => { x with wasCurrent := false }))) s

/-! ### The device vote -/

/-- A fence that will stop the Carriageway where it takes effect (R262, R263). -/
def State.fenceStops (s : State) (c : Nat) : Bool :=
  s.ras.pend.any (fun f => s.unitUsed c f.unit && (match f.unit with
    | .pier _ _ _ => f.spare.isNone
    | _ => true))

/-- A takeover's fence is in effect: its Pier is FENCED and its remap waits (R261). -/
def State.inBarrier (s : State) (f : PendFence) : Bool :=
  match f.unit with
  | .pier sp b p => (s.pier (bayNo sp b) p).state == 3
  | _ => false

/-- A mapped Pier of this Carriageway is to be taken over by a spare, and this is not the takeover Keystone that moves the
remap (R261). -/
def State.takeoverDue (s : State) (c kind : Nat) : Bool :=
  s.ras.pend.any (fun f => s.unitUsed c f.unit && !(kind == 2 && s.inBarrier f && f.spareDone) && (match f.unit, f.spare with
    | .pier _ _ _, some x => x != 255
    | _, _ => false))

/-- This member's vote (Table 14.6, R439).  A fence that stops the Carriageway is voted where it takes effect: not at a
Keystone that this member's own bad first run makes a replay follow (R260, R262, R263). -/
def State.formVote (s : State) (c kind : Nat) (hd : Bool) : Vote :=
  let x := s.cwy c
  let w := x.w
  let next := if x.life.state == .running then w.nextLayer else none
  { step := x.life.step, aborts := x.life.aborts, bad := !x.run.errs.isEmpty
    stopOrder := x.life.state == .stopping
    accRed := x.run.accRed || s.accReduced c
    glideBusy := s.glideBusy, takeover := s.takeoverDue c kind
    holdReq := next.isSome, holdDone := hd
    stopCause := max x.life.stopPend (if s.fenceStops c && (x.run.errs.isEmpty || kind != 0 || x.run.replay) then 4 else 0)
    target := s.pw.target, gap := s.paceGap
    holdLayer := match next with
      | some l => (match tget w.staged l with | some y => y.model | none => 0xFFFF)
      | none => 0xFFFF
    grants := if kind == 0 then x.run.grants.length else 0
    denials := if kind == 0 then x.run.denials.length else 0
    energy := x.key.votePj / 1000000
    spReady := (List.range 256).filter (fun n => (s.sp n).state == 2)
    counts := if kind == 0 then x.run.counts.filter (fun e => e.1 != 0xFFFF) else [] }

/-! ### The lead's seal (R120, R153, R154, R169, R217, R241 to R243, R261, R300) -/

/-- The commit list of a good step (Table 14.7). -/
def State.commitList (s : State) (c : Nat) : List Nat :=
  let r := (s.cwy c).run
  (List.range (s.decodeSlots c r.shape + s.prefillChunks c r.shape)).map (fun n =>
    match r.adm.find? (fun a => a.slot == n) with
    | none => 0xFF
    | some a =>
      if a.phase != 0 then 0
      else acceptedRun ((tgetD r.cands n []).take (a.tokens - 1)) (tgetD r.sel n []))

/-- The candidate tokens of an admission at the snapshot (R173). -/
def State.candsOf (s : State) (adm : List Adm) : Tab (List Nat) :=
  (adm.filter (fun a => a.phase == 0)).foldl (fun t a => match s.req a.handle with
    | some q => tset t a.slot (s.candToks q)
    | none => t) []

/-- The release before its admission is chosen.  A device stop takes effect at this Keystone whatever its seal: in place of
the replay of a first bad one (R18, R154). -/
def State.sealHead (s : State) (c : Nat) : Release :=
  let x := s.cwy c
  let v := x.key.merged
  let kind := x.key.kind
  let good := !v.bad
  let failed := v.bad && kind == 0 && x.run.replay
  let dev := if 3 ≤ v.stopCause then v.stopCause else 0
  let stop := dev != 0 || (good && v.stopOrder)
  let barrier := !stop && v.takeover && (good || failed) || !good && kind == 2 && !stop
  { step := if good && kind == 0 then x.life.step + 1 else x.life.step
    aborts := if failed then x.life.aborts + 1 else x.life.aborts
    good := good, stop := stop, failed := failed, barrier := barrier
    stopCause := if dev != 0 then dev else if stop then 1 else 0
    holdGranted := good && !stop && !barrier && v.holdReq && kind != 3
    gap := v.gap, commit := if good && kind == 0 then s.commitList c else [] }

/-- A change of R122 item 5 waits for the end of the hold that a release grants after a body (R217). -/
def Release.defers (rel : Release) (kind : Nat) : Bool := rel.holdGranted && kind != 3

/-- Spandrel slots whose pin count the lead reports at 0: those it has freed, those retiring, and those that a switch of
this release leaves (R224). -/
def State.unpinned (s : State) (c : Nat) (switching : List Nat) : List Nat :=
  (List.range 256).filter (fun n => bit (s.grant c 512 256) n && (s.sp n).pins == 0 &&
    ((s.sp n).state == 0 || (s.sp n).cwy == c && ((s.sp n).state == 4 || (s.sp n).state == 3 && ((s.sp n).retiring ||
      switching.any (fun m => (s.sp m).tenant == (s.sp n).tenant)))))

/-- The companions of another Carriageway keep the tokens that they hold at the snapshot: their reset belongs to the commit,
after it (R173, R174). -/
def keepDrafts (c : Nat) (s t : State) : State :=
  { t with reqs := t.reqs.map (fun e =>
    if e.2.isComp && e.2.cwy != c then (match s.req e.1 with
      | some x => (e.1, { e.2 with gen := x.gen, len := x.len })
      | none => e) else e) }

/-- The state that the commit of the lead's own seal will leave, with the candidates of the snapshot. -/
def State.preview (s : State) (c : Nat) : State := keepDrafts c s (applyCommit c (s.sealHead c) [] s)

/-- The lead's release (Table 14.7): the seal, and on the state that its commit will leave, the next shape
and admission. -/
def State.sealed (s : State) (c : Nat) : Release :=
  let x := s.cwy c
  let v := x.key.merged
  let kind := x.key.kind
  let h := s.sealHead c
  let replay := !h.good && !h.failed && kind == 0
  let s1 := s.preview c
  let next := if replay || h.stop || h.barrier || (!h.good && !h.failed) then none else s1.admission c
  let hold := h.holdGranted || (h.good && !h.stop && !h.barrier && v.holdReq && kind == 3 && (s.holdAll c || next.isNone))
  let act := h.good && !h.defers kind
  let switching := if act then v.spReady.filter (fun n => (s.sp n).cwy == c) else []
  let next := if hold then none else next
  let glide := h.good && !h.stop && !hold && v.target != 0xFF && v.target != s.pw.curStep && !v.glideBusy
  { h with
    holdGranted := hold, holdLayer := if hold then v.holdLayer else 0xFFFF
    glide := glide, glideUp := glide && decide (s.pw.curStep < v.target)
    idle := next.isNone && !replay && !h.stop && !hold && !h.barrier
    shape := if replay then x.run.shape else match next with | some n => n.1 | none => 0
    adm := match next with | some n => n.2 | none => []
    spCurrent := switching, spFree := if act then s1.unpinned c switching else [] }

/-- A release goes down the tree and waits for its own effect on the lead. -/
def sendRelease (c : Nat) (rel : Release) (s : State) : State :=
  let s := s.modKey c (fun k => { k with release := some rel })
  foldS (s.children c) (fun s m => sendStream c 3 m (releaseBytes rel) s) s

/-- The lead takes the snapshot and forms the seal. -/
def leadSeal (c : Nat) (s : State) : State :=
  let s := s.modKey c (fun k => { k with snap := s.nOrders })
  let rel := s.sealed c
  sendRelease c rel (s.modKey c (fun k => { k with cands := (s.preview c).candsOf rel.adm }))

/-! ### Sending a vote (R351) -/

/-- The vote goes up once it is formed and every child's stream is complete. -/
def trySend (c : Nat) (s : State) : State :=
  let k := (s.cwy c).key
  match k.own with
  | none => s
  | some o =>
    if k.sent || !(s.children c).all (fun m => k.kidsDone.contains m) then s
    else
      let s1 := s.foreseen c
      let v0 := s1.formVote c k.kind o.holdDone
      let v1 := ((s.children c).filter (fun m => !k.kidBad.contains m)).foldl (fun v m => mergeVote v (voteOf (tgetD k.kids m []).flatten)) v0
      let v := if k.kidBad.isEmpty then v1 else { v1 with bad := true }
      let par := (s.cwy c).run.parity
      let s := s.modRun c (fun r => { r with voteErrs := r.errs, errs := [] })
      let s := s.modCwy c (fun x => { x with arrivals := x.arrivals.filter (fun a => a.parity == par) })
      let s := s.modKey c (fun k => { k with own := some v0, sent := true, merged := v, fences := s1.ras.pend.map (·.unit), votePj := k.votePj % 1000000 })
      if s.isLead c then leadSeal c s
      else match s.parentOf c (s.self c) with
        | some m => sendStream c 2 m (voteBytes v) s
        | none => s

/-- A Keystone of a kind begins on this member: 0 step, 1 idle, 2 takeover, 3 hold. -/
def enterKeystone (c kind : Nat) (hd : Bool) (s : State) : State :=
  let s := staleCheck s
  trySend c (s.modKey c (fun k => { k with kind := kind, own := some (s.formVote c kind hd), sent := false }))

/-- Every die stream has ended its body: what its transfers brought stands in the memories (R106), and the device vote
is formed (Table 5.4, phases 1 and 2). -/
def bodyEnd (c t : Nat) (s : State) : State :=
  let s := land c t s
  let warm := s.keptWarm c t
  let s := s.modCwy c (fun x => { x with warm := warm, run := { x.run with inBody := false, wait := none, leaving := false } })
  enterKeystone c 0 false s

/-- All eight streams of a body have reached the Keystone. -/
def Run.allEnded (r : Run) : Bool := (List.range 8).all (fun d => r.ended.contains d)

/-- One die's stream ends its body; the last one ends the body. -/
def keystoneRun (op : Op) (sel : Tab (List Nat)) (s : State) : State :=
  let c := op.cwy
  let t := s.opTime op
  let s := s.modRun c (fun r => { r with ended := op.die :: r.ended, sel := sel.foldl (fun a e => tset a e.1 e.2) r.sel })
  if (s.cwy c).run.allEnded then bodyEnd c t s else s

def isKeystone (op : Op) (w : Nat) : Bool := opNames op 14 w && fld w 0 92 == 0

/-- KEYSTONE (R121). -/
def keystoneOp (op : Op) (sel : Tab (List Nat)) : State → State :=
  issue op (isKeystone op) (keystoneRun op sel)

def execKeystone (op : Op) (sel : Tab (List Nat)) (s : State) : Host.Outcome State Fault Refusal := goMem s (keystoneOp op sel)

/-- STREAM_DRAIN_DONE (R116, R140): streams that left the body enter the Keystone, with the bad vote that their error
brings, in the cycle after the latest last use of an op already issued.  DEDUCED: the stream of a die whose clocks have
stopped counts as gone, so that the Carriageway reaches the Keystone at which it stops (R268, R291; log 184). -/
def streamDrainOp (c : Nat) (s : State) : State :=
  let r := (s.cwy c).run
  let dead := (List.range 8).filter (fun d => r.deadDies.contains d || !s.dieOn d)
  if !r.inBody || (!r.leaving && dead.isEmpty) then s
  else
    let gone := if r.leaving then List.range 8 else dead
    let s := s.modRun c (fun r => { r with ended := r.ended ++ gone.filter (fun d => !r.ended.contains d) })
    if (s.cwy c).run.allEnded then bodyEnd c (max (r.lastUse + 1) (r.start + r.stall + r.now)) s else s

def execStreamDrainDone (c : Nat) (s : State) : Host.Outcome State Fault Refusal := goMem s (streamDrainOp c)

/-- VOTE_FRAME_ARRIVAL (R351): a child's frame joins its stream.  One that fails FEC, CRC-32C or its tag makes a bad vote
(R235, R344) and an event of its lane or direction (R333).  DESIGN CHOICE: nothing else of that child's vote is merged
(log 179). -/
def voteFrameOp (c child : Nat) (f : KeyFrame) (s : State) : State :=
  let k := (s.cwy c).key
  if (s.port f.port).state != 2 || !(s.children c).contains child || k.sent || k.kidsDone.contains child || !s.inState c [.running, .stopping] then s
  else
    let x := openKey c f s
    let b := x.1.1
    let done := fun (k : Key) => if fLast b then child :: k.kidsDone else k.kidsDone
    match x.1.2 with
    | some pt =>
      if !s.keyStream c 2 child b then x.2
      else trySend c (x.2.modKey c (fun k => { k with kids := tmod k.kids child [] (· ++ [pt]), kidsDone := done k }))
    | none => trySend c ((frameEvent f.port f.lockLost x.2).modKey c (fun k => { k with kidBad := child :: k.kidBad, kidsDone := done k }))

def execVoteFrameArrival (c child : Nat) (f : KeyFrame) (s : State) : Host.Outcome State Fault Refusal :=
  go s (voteFrameOp c child f)

/-! ### The release takes effect -/

/-- The run of the next body: for a replay the same shape, admission, candidates and wide grants, over the carried banks that
the bad seal left unflipped, so that the same ops read the same inputs and deliver the same values but for analogue codes and
random draws (R123, R126); the release's otherwise. -/
def nextRun (rel : Release) (replay : Bool) (cands : Tab (List Nat)) (now ref : Nat) (r : Run) : Run :=
  { shape := if replay then r.shape else rel.shape, parity := r.parity, replay := replay
    adm := if replay then r.adm else rel.adm, cands := if replay then r.cands else cands, grants := r.grants, denials := r.denials
    errs := r.errs, gapFrom := now, relRef := ref, gap := rel.gap }

/-- A Carriageway in STARTING is not ramped in before the device frequency equals the target (R298). -/
def State.atTarget (s : State) (c : Nat) : Bool := (s.cwy c).life.state != .starting || s.pw.curStep == s.pw.target

/-- Every Bay that the itinerary beats runs: the Carriageway is ramped in (R130). -/
def State.rampedIn (s : State) (c : Nat) : Bool :=
  s.atTarget c && ((s.cwy c).ramped || (s.beatenBays c).all (fun b => (s.cwy c).warm.contains b))

/-- A Carriageway stays ramped in only while every Bay that its itinerary beats runs (R130). -/
def coolCheck (c : Nat) (s : State) : State :=
  s.modCwy c (fun x => { x with ramped := x.ramped && (s.beatenBays c).all (fun b => x.warm.contains b) })

/-- Another member's hold: the lead records the change of its layer's version (R221).  Which version the layer then has
reaches the lead in no frame: it is a free value (log 150). -/
def noteForeign (c model : Nat) (s : State) : State :=
  if s.isLead c then
    let x := drawFree s
    let v := x.1 % 2 ^ 32
    noteVersion c model v (x.2.modW c (fun w => { w with versions := tset w.versions model v }))
  else s

/-- What follows a release that does not stop the Carriageway: a replay, a hold, a barrier, idling, or the
next body. -/
def afterRelease (c : Nat) (rel : Release) (replay : Bool) (acts : List KvAct) (s : State) : State :=
  let now := s.pw.core
  let cands := (s.cwy c).key.cands
  let s := s.modKey c (fun k => { votePj := k.votePj, carryPj := k.carryPj, snap := k.snap
                                  idle := rel.idle, barrier := rel.barrier, ready := replay || !(rel.idle || rel.barrier || rel.holdGranted) })
  let s := if replay || rel.holdGranted then s else applyAdmission c rel acts s
  let s := s.when rel.idle (coolCheck c) |>.modRun c (nextRun rel replay cands now s.pw.refTicks)
  if rel.holdGranted && !replay then
    match (s.cwy c).w.nextLayer with
    | some l =>
      if (match tget (s.cwy c).w.staged l with | some y => y.model == rel.holdLayer | none => false) then
        startLayer c l (s.modW c (fun w => { w with holdLayer := l, wstate := 4 }))
      else enterKeystone c 3 false (noteForeign c rel.holdLayer s)
    | none => enterKeystone c 3 false (noteForeign c rel.holdLayer s)
  else s

/-- The stop that a release carries (R153, R154); certificates of the requests that it ends name the step of this
Keystone (Table 10.3), which the commit has already passed. -/
def stopHere (c step : Nat) (rel : Release) (s : State) : State :=
  let x := s.cwy c
  let own := match x.key.own with | some v => v.stopCause | none => 0
  let s := s.modLife c (fun l => { l with step := step })
  let s := if rel.stopCause < 3 then
      toDisabled c (s.modLife c (fun l => { l with stopCause := if x.life.state == .stopping then 1 else 6 }))
    else stopNow c (if own == rel.stopCause then rel.stopCause else 6) s
  s.modLife c (fun l => { l with step := x.life.step })

/-- Copy-outs and restores halted by a stop go on (R203). -/
def resumeTransfers (c : Nat) (s : State) : State :=
  foldS ((s.liveReqs c).map (·.1)) (fun s h => match s.req h with
    | some q => askBlocks c h (foldS q.copy (fun s e => farBlock c h e.1 e.2 s) s)
    | none => s) s

/-- A REPLACE_LAYER whose last hold is over completes OK at the release that follows (R219). -/
def replaceDone (c : Nat) (s : State) : State :=
  match (s.cwy c).w.replace with
  | some r => if r.count ≤ r.done then endReplace c 0 0 r.count s else s
  | none => s

/-- A release takes effect on this member (Table 5.4, phases 6 and 7), with what the lead decided on pages. -/
def applyRelease (c : Nat) (rel : Release) (acts : List KvAct) (s : State) : State :=
  let before := s
  let x := s.cwy c
  let rel := { rel with adm := rel.adm.map (fun a => { a with handle := s.reqKey c a.handle }) }
  let acts := acts.map (s.actKey c)
  if x.life.state == .starting then
    let s := s.modLife c (fun l => { l with state := .running, step := rel.step, aborts := rel.aborts })
    let s := resumeTransfers c s
    let s := if s.isLead c then s else allOrders c false acts s
    syncTables c (afterRelease c rel false acts s)
  else
    let kind := x.key.kind
    let replay := !rel.good && !rel.failed && kind == 0 && !rel.stop
    let s := applyCommit c rel acts (startDemands (closeRun c s))
    let s := s.when (rel.good && kind == 2) (moveRemaps c)
    let s := s.when (rel.good || rel.failed || rel.stop) (fencesTake c)
    let s := s.when (rel.good && !rel.defers kind) (item5 c rel)
    let s := s.when (rel.good && !rel.defers kind) (replaceDone c)
    let s := s.when rel.good (finishUnbinds c)
    let s := if rel.stop then pendSweep (stopHere c x.life.step rel s) else afterRelease c rel replay acts s
    onceVectors before (flushKey before (syncTables c s))

/-- The index of a release frame that failed: as its header reads where that names this stream, else the lowest one that
is neither here nor asked for.  DEDUCED: R352 does not say how the receiver tells it (log 180). -/
def State.failedIndex (s : State) (c parent : Nat) (b : Bytes) : Nat :=
  let k := (s.cwy c).key
  if s.keyStream c 3 parent b then fOff b
  else
    let missing := (List.range 256).filter (fun i => (tget k.relFrames i).isNone)
    ((missing.find? (fun i => !k.relNak.contains i)).orElse (fun _ => missing.head?)).getD 0

/-- A release frame is asked for again by a NAK in the control slot towards its sender (R352). -/
def sendNak (c parent i : Nat) (s : State) : State :=
  match s.route c (s.here c) (s.memberCoord c parent) with
  | none => s
  | some d => match s.outPort c d with
    | some p => (s.modPort p (fun x => { x with ctl := x.ctl ++ [leBytes 1 2 ++ leBytes 1 c ++ leBytes 2 i] })).modKey c (fun k =>
        { k with relNak := i :: k.relNak })
    | none => s

/-- A release frame goes on to every child with its own index, and is kept for retransmission (R351, R352). -/
def passRelease (c i : Nat) (last : Bool) (pt : Bytes) (s : State) : State :=
  foldS (s.children c) (fun s m =>
    match s.route c (s.here c) (s.memberCoord c m) with
    | none => s
    | some d => match s.outPort c d with
      | none => s
      | some p =>
        let b := frameData (frameHead 3 0 (s.dirVc c d) last (s.cwy c).run.parity (s.jobId c) m (s.self c) 0 0 0 i 0) pt []
        queueFrame c d p b (s.modJk c (fun j => { j with sent := tset j.sent (256 * m + i) (p, b) }))) s

/-- The release stream, once every frame up to the last is here. -/
def Key.relStream (k : Key) : Option Bytes :=
  match k.relLast with
  | none => none
  | some n => if (List.range (n + 1)).all (fun i => (tget k.relFrames i).isSome) then some ((List.range (n + 1)).flatMap (fun i => tgetD k.relFrames i [])) else none

/-- RELEASE_FRAME_ARRIVAL (R351): on the lead its own release takes effect; elsewhere a frame is forwarded down the tree as
it arrives, whatever its place in the stream, one that fails FEC, CRC-32C or its tag is discarded and asked for again
(R235, R344, R352), and the frame that completes the stream acts. -/
def releaseFrameOp (c : Nat) (f : Option KeyFrame) (acts : List KvAct) (s : State) : State :=
  let k := (s.cwy c).key
  match f with
  | none => match k.release with
    | some rel => if s.isLead c then applyRelease c rel [] s else s
    | none => s
  | some f =>
    match s.parentOf c (s.self c) with
    | none => s
    | some parent =>
      if s.isLead c || (s.port f.port).state != 2 || !(k.sent || s.inState c [.starting]) then s
      else
        let x := openKey c f s
        let b := x.1.1
        match x.1.2 with
        | none => sendNak c parent (s.failedIndex c parent b) x.2
        | some pt =>
          let i := fOff b
          if !s.keyStream c 3 parent b || (tget k.relFrames i).isSome then x.2
          else
            let s := (passRelease c i (fLast b) pt x.2).modKey c (fun k => { k with
              relFrames := tset k.relFrames i pt, relLast := if fLast b then some i else k.relLast, relNak := k.relNak.filter (· != i) })
            match (s.cwy c).key.relStream with
            | some bs => applyRelease c (releaseOf bs) acts s
            | none => s

def execReleaseFrameArrival (c : Nat) (f : Option KeyFrame) (acts : List KvAct) (s : State) : Host.Outcome State Fault Refusal :=
  goMem s (releaseFrameOp c f acts)

/-! ### Bodies, time-outs and Keystones without a body -/

/-- A beat or an array use that the device's own work began before a body has ended where the body's op of that Pier or main
array stands, for a body that starts in a cycle (R111). -/
def State.ownClear (s : State) (c start : Nat) : Bool :=
  (List.range 6).all (fun sp => ((s.stream c (s.cwy c).run.shape sp).filter (fun w => [1, 2, 3].contains (opClass w))).all (fun w =>
    let bn := bayNo sp (opBay w)
    let at_ := start + opCycle w
    (opClass w == 3 || (maskPiers (fld w 68 16)).all (fun e =>
      (s.pier bn (s.phys bn e.2)).lastStart.all (fun b => decide (b + beatLen (s.bayMode bn) ≤ at_)))) &&
    (opClass w == 2 || (s.bay bn).array.all (fun a => decide (a.1 + a.2 ≤ at_)))))

/-- The Carriageway may start its next body: released, ramped in, the slew that its Keystone applied complete, and the
pacing gap after both over (R107, R299, R310).  DESIGN CHOICE: the Keystone lasts until no beat of the device's own that it
found under way meets an op of the body (R111; log 215).  In halt-safe a released body still runs: the Carriageway stops at
the Keystone that ends it (R268). -/
def State.mayStart (s : State) (c t : Nat) : Bool :=
  let x := s.cwy c
  x.key.ready && s.inState c [.running, .stopping] && !(s.glideBusy && s.pw.slewOf == some c) &&
    decide (x.run.gapFrom + 64 * x.run.gap ≤ t) && s.rampedIn c && s.ownClear c (phaseFrom t 0)

/-- Picoseconds from the release to a body that starts in a cycle: the ticks since, and the cycles still to come (R314). -/
def State.sinceRelease (s : State) (c start : Nat) : Nat :=
  10000 * (s.pw.refTicks - (s.cwy c).run.relRef) + cyclesPs (start - s.pw.core) s.pw.curStep - cyclesPs (s.pw.core - start) s.pw.curStep

/-- BODY_START (R107, R112): in the first cycle at or after t that is a multiple of 16. -/
def bodyStartOp (c t : Nat) (s : State) : State :=
  if !s.mayStart c t then s
  else
    let first := !(s.cwy c).life.started
    let s := s.modLife c (fun l => { l with started := true })
    let s := s.modKey c (fun k => { k with ready := false })
    let s := s.modEn (fun e => { e with exempt := tmod e.exempt c 0 (· + s.sinceRelease c (phaseFrom t 0)) })
    noteAcc (s.modRun c (fun r => { r with inBody := true, start := phaseFrom t 0, stall := 0, parity := if first then 0 else 1 - r.parity }))

def execBodyStart (c t : Nat) (s : State) : Host.Outcome State Fault Refusal := go s (bodyStartOp c t)

/-- KEYSTONE_TIMEOUT (R124): no release within wait_limit of the vote.  DESIGN CHOICE: on the lead, and on a member that
still waits for its children's votes, wait_limit runs from the member's own vote as formed: R124 counts from its sending
(log 142). -/
def timeoutOp (c : Nat) (s : State) : State :=
  let x := s.cwy c
  if x.key.own.isNone || x.key.release.isSome || !s.inState c [.running, .stopping] then s
  else flush s (pendSweep (stopNow c 2 (post 0x13 0xFF (leBytes 1 c ++ zeros 7 ++ leBytes 8 x.life.step) s)))

def execKeystoneTimeout (c : Nat) (s : State) : Host.Outcome State Fault Refusal := go s (timeoutOp c)

/-- IDLE_KEYSTONE (R170). -/
def idleKeystoneOp (c : Nat) (s : State) : State :=
  let x := s.cwy c
  if !x.key.idle || x.key.own.isSome || !s.inState c [.running, .stopping] then s else enterKeystone c 1 false s

def execIdleKeystone (c : Nat) (s : State) : Host.Outcome State Fault Refusal := go s (idleKeystoneOp c)

/-- TAKEOVER_KEYSTONE (R261): every spare of this member's takeovers is complete. -/
def takeoverKeystoneOp (c : Nat) (s : State) : State :=
  let x := s.cwy c
  if !x.key.barrier || x.key.own.isSome || !s.inState c [.running, .stopping] ||
      s.ras.pend.any (fun f => s.unitUsed c f.unit && s.inBarrier f && !f.spareDone && f.spare.isSome) then s
  else enterKeystone c 2 false s

def execTakeoverKeystone (c : Nat) (s : State) : Host.Outcome State Fault Refusal := go s (takeoverKeystoneOp c)

/-- HOLD_DONE (R217, R220): the layer is written, its descriptors flip, and the hold-done vote goes out. -/
def holdDoneOp (c : Nat) (failed : List (Nat × Nat × Nat)) (s : State) : State :=
  if (s.cwy c).w.holdLayer == 255 || (s.cwy c).w.wstate != 4 then s
  else
    enterKeystone c 3 true (flush s (replaceOne c failed s))

def execHoldDone (c : Nat) (readBackFail : List (Nat × Nat × Nat)) (s : State) : Host.Outcome State Fault Refusal :=
  go s (holdDoneOp c readBackFail)

/-- JOB_START (R134, R155, R298): the lead of a job whose every member has passed its check and ramped in releases the
current step.  DESIGN CHOICE: the command names the other members that have: how the lead learns it the spec does not
say (log 143). -/
def jobStartOp (c : Nat) (others : List Nat) (s : State) : State :=
  let x := s.cwy c
  if x.life.state != .starting || !s.isLead c || x.key.release.isSome || !s.rampedIn c ||
      !(List.range (s.members c)).all (fun m => m == s.self c || others.contains m) then s
  else
    let next := s.admission c
    let s := s.modKey c (fun k => { k with snap := s.nOrders, cands := match next with | some n => s.candsOf n.2 | none => [] })
    sendRelease c { step := x.life.step, aborts := x.life.aborts, good := true, gap := s.paceGap
                    idle := next.isNone, shape := match next with | some n => n.1 | none => 0
                    adm := match next with | some n => n.2 | none => [] } s

def execJobStart (c : Nat) (others : List Nat) (s : State) : Host.Outcome State Fault Refusal := go s (jobStartOp c others)

/-! ### Ramp and ballast (R128 to R130) -/

/-- A READY Pier of a Bay that the running shapes and the device's other work leave free for a beat from cycle t on
(R111). -/
def State.freePier (s : State) (bn t : Nat) : Option Nat :=
  if s.bayOut bn then none else (s.bay bn).ready.find? (fun p => s.ownSlot bn p t)

/-- Ballast beats to Bays in a cycle.  Where calibration beats of the Pier wait, one of them runs, which counts as a
ballast beat and goes before it (R280). -/
def ballastAt (t : Nat) (bs : List Nat) (s : State) : State :=
  foldS bs (fun s b => match s.freePier b t with
    | some p => if s.calWaits b p then calBeat b p t s else ownBeat b p t s
    | none => s) s

/-- BALLAST_TIMER (R129): between bodies, or in a wait stall, every Bay that ran when the body ended or stalled gets a
ballast beat, as do the Bays that still ramp out, inside a body too (R128). -/
def ballastTimerOp (c t : Nat) (s : State) : State :=
  let x := s.cwy c
  ballastAt t (if x.run.inBody && x.run.wait.isNone then x.warm.filter (fun b => !s.beats c b) else x.warm) s

def execBallastTimer (c t : Nat) (s : State) : Host.Outcome State Fault Refusal := go s (ballastTimerOp c t)

/-- RAMP_WINDOW (R130): one ramp window in, towards the Bays that the itinerary beats, or out; a Carriageway that was
disabled ramps out at the share it had, and one enabled again goes on from the Bays that still run, ramping those out
that it does not beat (R128). -/
def rampWindowOp (c t : Nat) (s : State) : State :=
  let x := s.cwy c
  let share := (if x.life.state == .disabled then x.share else s.rampShare c) - x.heated
  let s := s.modCwy c (fun x => { x with heated := 0 })
  let own := x.warm.filter (s.beats c)
  let rest := (x.warm.filter (fun b => !s.beats c b)).drop share
  if x.run.inBody then s.modCwy c (fun x => { x with warm := own ++ rest })
  else if x.life.state == .starting || (x.key.ready && s.inState c [.running, .stopping]) then
    let cold := (s.beatenBays c).filter (fun b => !x.warm.contains b)
    let s := ballastAt t (cold.take share) s
    s.modCwy c (fun x => { x with warm := (List.range 1536).filter (fun b => own.contains b || rest.contains b || (cold.take share).contains b)
                                  ramped := decide (cold.length ≤ share) })
  else if x.key.idle || x.life.state == .stopped || x.life.state == .disabled then
    coolCheck c (s.modCwy c (fun x => { x with warm := x.warm.drop share }))
  else s

def execRampWindow (c t : Nat) (s : State) : Host.Outcome State Fault Refusal := go s (rampWindowOp c t)

end Sys2Proof.Machine
end

