-- ==== Sys2Proof/Machine/Checks.lean ====
section
/-! DEFINITION. The enable check, the resume check and the binding check (Table 5.5, R132, R149, R157,
R178 to R183, R437, R441): each answers the reason code of its first failing condition, 0 when it passes. -/

namespace Sys2Proof.Machine

/-- The code of the first condition that holds; 0 when none does. -/
def firstFail : List (Bool × Nat) → Nat
  | [] => 0
  | (b, n) :: r => if b then n else firstFail r

/-- A range lies within another. -/
def inside (a b : Nat × Nat) : Bool := decide (b.1 ≤ a.1 ∧ a.1 + a.2 ≤ b.1 + b.2)

/-- Some range of a list overlaps a later one. -/
def clash : List (Nat × Nat) → Bool
  | [] => false
  | a :: r => r.any (overlap a) || clash r

/-- Every other Carriageway of the device that is not DISABLED. -/
def State.others (s : State) (c : Nat) : List Nat := s.enabledCwys.filter (· != c)

/-! ### Checks 1 and 2 (R437, R149) -/

/-- Carve-out of a Carriageway in bytes. -/
def State.carve (s : State) (c : Nat) : Nat × Nat := (s.carveBase c, s.carveLen c)

def State.itinZero (s : State) (c o n : Nat) : Bool := allZero (memBytes s.hbm (s.itinBase c + o) n)

/-- The signature of the container verifies under the key at key_addr (R136).  DESIGN CHOICE: bytes 4 to 15 and 3,325 to
4,095 of the signature block may hold any value: no rule names a failure code for them (log 188). -/
def State.sigGood (s : State) (c : Nat) : Bool :=
  let key := memBytes s.hbm (s.keyAddr c) 1952
  let n := s.totalLen c - 4096
  memBytes s.hbm (s.itinBase c + 32) 16 == shake 16 key && s.itin c n 2 == 1 && s.itin c (n + 2) 2 == 3309 &&
    Config.mldsaVerify key (shake 64 (memBytes s.hbm (s.itinBase c) n)) (memBytes s.hbm (s.itinBase c + n + 16) 3309)

/-- Lengths that sections 2, 3 and 5 must have, and the order, alignment and bounds of all (R135, Table 6.1).
DESIGN CHOICE: a stream directory that is not 128 bytes for each shape is a section directory that disagrees (0x02),
judged before R138's order (log 144); section 7 itself starts on a 4 KiB boundary as its op streams do; and the bytes between
sections, which R149 does not say the check reads, may hold any value (log 189). -/
def State.dirBad (s : State) (c : Nat) : Bool :=
  let n := s.shapeCount c
  let secs := (List.range 6).map (fun k => (s.secOff c (k + 2), s.secLen c (k + 2)))
  let ends := [256] ++ secs.map (fun e => e.1 + e.2)
  s.secLen c 2 != 32 * n || s.secLen c 3 != 128 * n || s.secLen c 5 != 32 * s.layerCount c ||
  secs.any (fun e => e.1 % 64 != 0) || s.secOff c 7 % 4096 != 0 ||
  (List.range 6).any (fun k => decide ((secs.getD k (0, 0)).1 < ends.getD k 0)) ||
  decide (s.totalLen c - 4096 < s.secOff c 7 + s.secLen c 7) ||
  (List.range n).any (fun k => (List.range 8).any (fun d =>
    s.dirf c k d 8 8 % 4096 != 0 || !inside (s.dirf c k d 8 8, 16 * s.dirf c k d 4 4) (s.secOff c 7, s.secLen c 7)))

/-- Header fields out of range or reserved bytes set (Table 6.2). -/
def State.headBad (s : State) (c : Nat) : Bool :=
  let out := fun (o lo hi : Nat) => decide (s.itin c o 1 < lo ∨ hi < s.itin c o 1)
  out 10 1 32 || out 11 0 1 || out 12 0 48 || out 13 1 64 || out 14 0 15 || out 15 1 255 || s.waitLimit c == 0 ||
  !s.itinZero c 22 2 || out 64 0 31 || out 65 0 31 || out 66 0 31 || !s.itinZero c 67 1 ||
  out 68 1 32 || out 69 1 32 || out 70 1 32 || out 71 0 7 || !s.itinZero c 75 1 || !s.itinZero c 79 1 || !s.itinZero c 128 128

/-- Shape fields out of range, R171 included. -/
def State.shapeBad (s : State) (c n : Nat) : Bool :=
  let o := s.secOff c 2 + 32 * n
  decide (s.shapeL c n < 64 ∨ 4096 < s.shapeL c n) || decide (1024 < s.decodeSlots c n) || decide (16 < s.prefillChunks c n) ||
  decide (8 < s.specCands c n) || decide (1024 < s.decodeSlots c n + s.prefillChunks c n) ||
  !s.itinZero c (o + 6) 2 || !s.itinZero c (o + 12) 20

/-- Link identifiers of Table 6.6. -/
def linkOk (l : Nat) : Bool := decide (l < 768 ∧ l % 128 ≤ 72) || decide (1024 ≤ l ∧ l ≤ 1043)

/-- Payload length of a record type, where Table 6.5 gives its fields their widths; a slot bitmap has at most 32 bytes. -/
def payloadBad (typ n : Nat) : Bool :=
  match typ with
  | 1 => n != 48
  | 2 => n != 16
  | 3 => n != 6
  | 4 => n != 4
  | 5 => n != 8
  | 6 => n != 6
  | 7 => decide (32 < n)
  | 8 => n != 2
  | _ => false

/-- Resource records of a reserved type, of another length than their fields, that run out of their section, whose
padding is not zero, or with a field out of range (Table 6.5).  DESIGN CHOICE: a CARRIED record's space is its first
byte (log 145). -/
def State.recordBad (s : State) (c : Nat) (r : Nat × Nat × Nat) : Bool :=
  payloadBad r.1 r.2.2 || decide (s.secOff c 4 + s.secLen c 4 < r.2.1 + r.2.2) ||
  !s.itinZero c (r.2.1 + r.2.2) ((12 - r.2.2 % 8) % 8) ||
  match r.1 with
  | 3 => s.itin c r.2.1 2 != 6 && s.itin c r.2.1 2 != 7
  | 4 => !linkOk (s.itin c r.2.1 2)
  | 8 => decide (1087 < s.itin c r.2.1 2)
  | 9 => decide (1 < s.itin c r.2.1 1)
  | t => t == 0 || decide (9 < t)

/-- Layer fields out of range (Table 6.7). -/
def State.layerBad (s : State) (c l : Nat) : Bool :=
  let o := s.secOff c 5 + 32 * l
  s.layerf c l 4 1 == 0 || decide (2 < s.layerf c l 5 1) || !s.itinZero c (o + 6) 2 || s.layerf c l 8 8 % 64 != 0 ||
  !s.itinZero c (o + 16) 16

def State.fieldsBad (s : State) (c : Nat) : Bool :=
  s.headBad c || (List.range (s.shapeCount c)).any (s.shapeBad c) ||
  (List.range (8 * s.shapeCount c)).any (fun k => !s.itinZero c (s.secOff c 3 + 16 * k + 2) 2 ||
    decide (s.shapeCount c ≤ s.itin c (s.secOff c 3 + 16 * k) 1) || decide (7 < s.itin c (s.secOff c 3 + 16 * k + 1) 1)) ||
  (s.records c).any (s.recordBad c) || (List.range (s.layerCount c)).any (s.layerBad c)

/-- The stream directory is not the ordered list of R138. -/
def State.streamsBad (s : State) (c : Nat) : Bool :=
  (List.range (s.shapeCount c)).any (fun n => (List.range 8).any (fun d => s.dirf c n d 0 1 != n || s.dirf c n d 1 1 != d))

/-- An op with a reserved class or predicate, a cycle outside its body or a layer out of range. -/
def State.opBad (s : State) (c n w : Nat) : Bool :=
  opClass w == 0 || opClass w == 15 || decide (s.shapeL c n * 512 ≤ opCycle w) || opPred w == 3 ||
  ((opPred w == 1 || opPred w == 2) && decide (s.layerCount c ≤ opLayer w))

/-- An op of a class that this kind of die does not issue (Table 6.9): PL_SEND by its direction, a MOVE by its source. -/
def opDieBad (d w : Nat) : Bool :=
  let k := opClass w
  (decide (1 ≤ k ∧ k ≤ 6 ∨ k = 10 ∨ k = 11) && decide (6 ≤ d)) ||
  (k == 7 && fld w 89 3 != d) || (k == 12 && !((d == 6 && decide (fld w 89 3 < 3)) || (d == 7 && decide (3 ≤ fld w 89 3 ∧ fld w 89 3 < 6))))

/-- Cycles that decrease, or more than 16 ops of one cycle (R141). -/
def orderBad : List Nat → Bool
  | [] => false
  | w :: r => (match r with | v :: _ => decide (opCycle v < opCycle w) | [] => false) ||
      decide (15 < (r.takeWhile (fun v => opCycle v == opCycle w)).length) || orderBad r

/-- A stream that does not end with exactly one KEYSTONE in the last cycle. -/
def State.keystoneBad (s : State) (c n : Nat) (ws : List Nat) : Bool :=
  (ws.filter (fun w => opClass w == 14)).length != 1 ||
  match ws.getLast? with
  | some w => opClass w != 14 || opCycle w + 1 != s.shapeL c n * 512
  | none => true

/-- Cycles of the WAIT ops of a stream. -/
def waitCycles (ws : List Nat) : List Nat := (ws.filter (fun w => opClass w == 13)).map opCycle

def State.shapeStreams (s : State) (c n : Nat) : List (Nat × List Nat) := (List.range 8).map (fun d => (d, s.stream c n d))

def State.anyShape (s : State) (c : Nat) (f : Nat → List (Nat × List Nat) → Bool) : Bool :=
  (List.range (s.shapeCount c)).any (fun n => f n (s.shapeStreams c n))

/-- Opcodes of Table 6.13. -/
def girderOpcode (k : Nat) : Bool := decide (1 ≤ k ∧ k ≤ 13 ∨ 16 ≤ k ∧ k ≤ 19)

/-- A Girder image that R148 rejects.  DESIGN CHOICE: bytes 8 to 63 of its header, to which the spec gives no meaning, may
hold any value (log 190); the last bytes of a code whose length is no multiple of 8 count for nothing, and code that runs
past the section is read as it stands (log 206). -/
def State.imageBad (s : State) (c o : Nat) : Bool :=
  let nr := s.itin c (o + 2) 2; let len := s.itin c (o + 4) 4
  let code := o + 64 + 8 * nr
  decide (6 ≤ s.itin c o 1) || decide (64 ≤ s.itin c (o + 1) 1) || nr == 0 || decide (1024 < nr) || decide (65536 < len) ||
  (List.range (len / 8)).any (fun i => !girderOpcode (s.itin c (code + 8 * i + 7) 1)) ||
  (List.range nr).any (fun i => decide (len / 8 ≤ s.itin c (o + 64 + 8 * i) 2 % 8192))

/-- Checks 1 and 2; a resume compares the build_id once the signature holds (R155). -/
def State.checkText (s : State) (c : Nat) (resume : Bool) : Nat :=
  firstFail [
    (s.keyAddr c % 64 != 0 || s.itinBase c % 4096 != 0 || !inside (s.keyAddr c, 1952) (s.carve c) || !inside (s.itinBase c, 256) (s.carve c), 2),
    (allZero (memBytes s.hbm (s.keyAddr c) 1952), 8),
    (s.itin c 0 4 != 0x54494E58 || s.itin c 4 2 != 1 || s.totalLen c % 4096 != 0 || decide (s.totalLen c < 8192 ∨ 2 ^ 30 < s.totalLen c) ||
      !inside (s.itinBase c, s.totalLen c) (s.carve c), 2),
    (!s.sigGood c, 1),
    (resume && s.itinBuild c != slice (s.cwy c).life.buildId 0 16, 9),
    (s.itin c 6 2 != 1 || s.itin c 8 2 != 0, 4),
    (s.dirBad c, 2),
    (s.fieldsBad c, 3),
    (s.streamsBad c, 5),
    (s.anyShape c (fun n l => l.any (fun e => e.2.any (s.opBad c n))), 6),
    (s.anyShape c (fun _ l => l.any (fun e => orderBad e.2 || e.2.any (opDieBad e.1))), 5),
    (s.anyShape c (fun n l => l.any (fun e => s.keystoneBad c n e.2)), 5),
    (s.anyShape c (fun _ l => l.any (fun e => waitCycles e.2 != waitCycles (l.headD (0, [])).2)), 5),
    ((s.images c).any (s.imageBad c), 7)]

/-! ### Check 3 -/

/-- HBM_RANGE records of a Carriageway in granules from its carve-out base, and its pool and table region. -/
def State.ranges (s : State) (c : Nat) : List (Nat × Nat) := (s.recs c 2).map (fun r => (s.itin c r.1 8, s.itin c (r.1 + 8) 8))
def State.regions (s : State) (c : Nat) : List (Nat × Nat) := [(s.kvf c 0 18, s.kvf c 18 18), (s.kvf c 36 18, s.kvf c 64 18)]

/-- Carve-out in granules; the certificate store (R251) and an enabled landing region (R359) likewise. -/
def State.carveGran (s : State) (c : Nat) : Nat × Nat := (s.grant c 384 18, s.grant c 416 18)
def State.landGran (s : State) : List (Nat × Nat) :=
  if s.host.landEn then [(fld (s.word 0x10020) 0 9 * 512, fld (s.word 0x10020) 16 7 * 512)] else []

/-- The HBM conditions of check 3 (R183, R251, R359, R441): the grant is clear of the certificate store and an
enabled landing region, and what the container and CWY_KV declare lies within it, each clear of the others and
of the carve-outs of other enabled Carriageways.  DESIGN CHOICE: a region of length 0 is judged by its base, which must not lie
strictly inside another range nor beyond the carve-out (log 209). -/
def State.hbmBad (s : State) (c : Nat) : Bool :=
  let g := s.carveGran c
  decide (384 * 512 < g.1 + g.2) || overlap g storeGran || s.landGran.any (overlap g) ||
  (s.ranges c ++ s.regions c).any (fun r =>
    decide (g.2 < r.1 + r.2) || (s.others c).any (fun o => overlap (g.1 + r.1, r.2) (s.carveGran o))) || clash (s.ranges c ++ s.regions c)

/-- ABUT_SRAM records: die, first unit, count. -/
def State.abutRecs (s : State) (c : Nat) : List (Nat × (Nat × Nat)) :=
  (s.recs c 3).map (fun r => (s.itin c r.1 2, (s.itin c (r.1 + 2) 2, s.itin c (r.1 + 4) 2)))

/-- SRAM grant on an Abutment, in 64 KiB units. -/
def State.sramGrant (s : State) (c die : Nat) : Nat × Nat :=
  if die = 6 then (s.grant c 448 11, s.grant c 464 11) else (s.grant c 480 11, s.grant c 496 11)

/-- Units of a staging zone with its cache (R190): a member without KV layers has an empty zone. -/
def State.zoneUnits (s : State) (c : Nat) : Nat :=
  let n := s.kvLayers c * s.kvHeads c
  let most := ((List.range (s.shapeCount c)).map (s.nPos c)).foldl max 0
  (if s.kvLayers c = 0 then 0 else ceilDiv (256 * 4 * ceilDiv n 8 * most) 65536) + s.kvf c 176 11

/-- The staging zones with their caches, as records. -/
def State.zones (s : State) (c : Nat) : List (Nat × (Nat × Nat)) :=
  if s.zoneUnits c = 0 then [] else [(6, (s.kvf c 144 11, s.zoneUnits c)), (7, (s.kvf c 160 11, s.zoneUnits c))]

def State.sramBad (s : State) (c : Nat) : Bool :=
  let rs := s.abutRecs c ++ s.zones c
  [6, 7].any (fun d =>
    let mine := (rs.filter (fun r => r.1 == d)).map (·.2)
    mine.any (fun r => decide (1536 < r.1 + r.2) || !inside r (s.sramGrant c d) || (s.others c).any (fun o => overlap r (s.sramGrant o d))) || clash mine)

/-- Check 3 (R151, R183, R262, R441). -/
def State.checkGrant (s : State) (c : Nat) : Nat :=
  firstFail [
    ((s.kvLayers c != 0 && decide (s.kvHeads c < 1 ∨ 8 < s.kvHeads c)) || decide (s.ringSize c < 1 ∨ 32 < s.ringSize c) ||
      decide (s.ringSize c ≤ s.ringPos c) || decide (s.layerCount c < s.kvFirst c + s.kvLayers c) || (s.kvLayers c != 0 && s.nFrames c == 0), 3),
    ((List.range 6).any (fun p => s.groups c p &&& s.grant c (64 * p) 64 != s.groups c p), 0x10),
    ((s.others c).any (fun o => (List.range 6).any (fun p => s.groups c p &&& s.groups o p != 0)), 0x11),
    (s.hbmBad c, 0x12),
    (s.sramBad c, 0x13),
    (s.itinSlots c &&& s.grant c 512 256 != s.itinSlots c || (s.others c).any (fun o => s.itinSlots c &&& s.itinSlots o != 0), 0x14),
    (decide (1024 < s.thShare c + ((s.others c).map s.thShare).sum), 0x1A),
    ((s.beatenBays c).any (fun b => decide (s.usablePiers b < 16)), 0x1B)]

/-! ### Checks 4 to 10 -/

/-- Pelind shares of a port that job slots carry, and those that its through slots carry (R327). -/
def State.portShare (s : State) (cs : List Nat) (q : Nat) : Nat :=
  (cs.map (fun c => ((List.range 6).map (fun d => if !s.closed c d && s.portOf d == some q then s.pelShare c d else 0)).sum)).sum
def State.portClosed (s : State) (cs : List Nat) (q : Nat) : Nat :=
  (cs.map (fun c => ((List.range 6).map (fun d => if s.closed c d && s.outPort c d == some q then s.pelShare c d else 0)).sum)).sum

def State.checkShares (s : State) (c : Nat) : Nat :=
  let cs := c :: s.others c
  firstFail [
    ((s.others c).any (fun o => (s.masks c).any (fun m => (s.masks o).any (fun k => m.1 == k.1 && m.2 &&& k.2 != 0))), 0x15),
    ((s.masks c).any (fun m => s.ras.lostLinks.contains m.1), 0x1C),
    ((List.range 8).any (fun k => decide (64 < (cs.map (fun o => s.hbmShare o k)).sum)), 0x16),
    ((List.range 6).any (fun q => decide (56 < s.portShare cs q) || decide (7 < s.portClosed cs q)), 0x17)]

/-- A logical direction that the slice needs from this member: its neighbour there lies in the slice. -/
def State.needsDir (s : State) (c d : Nat) : Bool :=
  let a := d % 3; let n := coordAt (s.jobExtent c) a; let x := coordAt (s.here c) a
  decide (1 < n) && (s.jobWrap c a || (if d < 3 then decide (x + 1 < n) else decide (0 < x)))

/-- A wrap that neither the torus nor a closure of this end member provides (R337). -/
def State.wrapBad (s : State) (c a : Nat) : Bool :=
  let n := coordAt (s.jobExtent c) a; let x := coordAt (s.here c) a
  s.jobWrap c a && n != coordAt s.torusSize a && ((x + 1 == n && !s.closed c a) || (x == 0 && !s.closed c (a + 3)))

/-- An UP port for a direction (R337): the one its valid closure leaves on, or the one mapped to it. -/
def State.dirReady (s : State) (c d : Nat) : Bool :=
  match s.outPort c d with
  | some p => (s.port p).state == 2
  | none => false

def State.checkSlice (s : State) (c : Nat) : Nat :=
  let o := s.jobOrigin c; let e := s.jobExtent c; let l := s.jobLead c; let h := s.coord
  let need := (List.range 6).filter (s.needsDir c)
  firstFail [
    ((s.itin c 64 1, s.itin c 65 1, s.itin c 66 1) != o || (s.itin c 68 1, s.itin c 69 1, s.itin c 70 1) != e ||
      s.itin c 71 1 != s.jobf c 30 3 || (List.range 3).any (s.wrapBad c), 0x50),
    ((s.itin c 72 1, s.itin c 73 1, s.itin c 74 1) != h || (s.itin c 76 1, s.itin c 77 1, s.itin c 78 1) != l, 0x51),
    (need.any (fun d => !s.dirReady c d) || (!need.isEmpty && (s.cwy c).jk.state != 1), 0x53)]

/-- Tenants bound to a Carriageway. -/
def State.boundTenants (s : State) (c : Nat) : List Nat := (List.range 1024).filter (fun t => (s.tenant t).bound && s.tenCwy t == c)

/-- Limits of a tenant slot outside their ranges (TEN_SLOT). -/
def State.limitsBad (s : State) (t : Nat) : Bool :=
  decide (s.tenCtx t < 1 ∨ 10485760 < s.tenCtx t) || decide (s.tenPrompt t < 1 ∨ s.tenCtx t < s.tenPrompt t) ||
  decide (s.tenTracked t < 1 ∨ 1048576 < s.tenTracked t) || decide (s.tenActive t < 1 ∨ 1024 < s.tenActive t) || s.far t 0 12 != 0

/-- The checks of R157 over a list of tenants, check 11 apart: the ranges of their fields, then check 9.  DEDUCED (log 164):
at enable, where R157 has them made for a tenant bound in DISABLED, a field out of its range gives 0x61 as well. -/
def State.checkTenants (s : State) (ts : List Nat) : Nat :=
  firstFail [(ts.any s.limitsBad, 0x61), (!ts.isEmpty && !s.host.pasidEn, 0x40), (ts.any (fun t => (s.tenant t).keyState != 1), 0x41)]

/-! ### Check 11 (R178 to R180), with times in picoseconds × device frequency -/

/-- Worst-case period of the itinerary at a frequency step, exact. -/
def State.periodX (s : State) (c step : Nat) : Nat :=
  ((List.range (s.shapeCount c)).map (fun n => s.shapeL c n * 512 * 10000000 + 1000 * (s.waitAllow c + s.kMax c) * freq100k step)).foldl max 0

/-- The deadline check of a lead for a set of tenants at a frequency step; the ramp-in time counts the beaten Bays that
do not run already (R130). -/
def State.checkDeadlines (s : State) (c step : Nat) (all : List Nat) : Nat :=
  let ts := all.filter s.bounded
  let b := (ts.map s.tenActive).sum
  let ctx := (ts.map s.tenCtx).foldl max 0
  let gs := (List.range (s.shapeCount c)).filter (fun n => decide (b ≤ s.decodeSlots c n) && decide (1 ≤ s.prefillChunks c n) &&
    decide (ceilDiv (ceilDiv ctx 16) (max 1 (s.ringSize c)) ≤ s.kvPages c n))
  let cg := (gs.map (s.prefillChunks c)).foldl max 0
  let f := freq100k step
  let p := s.periodX c step
  let ramp := ceilDiv ((s.beatenBays c).filter (fun b => !(s.cwy c).warm.contains b)).length (max 1 (s.rampShare c)) * 16000 * 10000000
  let w := (ts.map (fun t => s.tenActive t * ceilDiv (s.tenPrompt t) 256)).sum
  firstFail [
    (!ts.isEmpty && gs.isEmpty, 0x32),
    (ts.any (fun t => s.tenItl t != 0 && decide (s.tenItl t * 1000000 * f < 2 * p)), 0x30),
    (ts.any (fun t => s.tenFtl t != 0 && decide (s.tenFtl t * 1000000000 * f < ramp + p + 2 * p * ceilDiv w (max 1 cg))), 0x31)]

/-! ### The whole check -/

/-- The first of several checks that fails. -/
def firstCode : List Nat → Nat
  | [] => 0
  | n :: r => if n = 0 then firstCode r else n

/-- Checks 5 to 8. -/
def State.checkFreq (s : State) (c : Nat) : Nat :=
  let n := s.pw.target
  firstFail [
    (decide (s.wideReserve c < s.wideBudget c), 0x18),
    (!s.isLead c && !(s.itinRings c).isEmpty, 0x52),
    ((s.itinRings c).any (fun r => !s.ringBound r c), 0x19),
    (!s.pw.written, 0x24),
    (decide (s.fHi c < n), 0x20),
    ((List.range 6).any (fun p => s.usesSpan c p && decide (fmax p < n)), 0x21),
    (s.pierUse c && decide (32 < n), 0x22),
    (decide (s.capf 16 9 < s.rampShare c + ((s.others c).map s.rampShare).sum), 0x23)]

/-- Table 5.5, in order; the first failure gives the reason (R132). -/
def State.enableVerdict (s : State) (c : Nat) (resume : Bool) : Nat :=
  firstCode [s.checkText c resume, s.checkGrant c, s.checkShares c, s.checkFreq c, s.checkTenants (s.boundTenants c),
    s.checkSlice c, if s.isLead c then s.checkDeadlines c s.pw.target (s.boundTenants c) else 0]

/-- The checks of a binding (R157). -/
def State.bindVerdict (s : State) (t : Nat) : Nat :=
  let c := s.tenCwy t
  firstCode [s.checkTenants [t],
    if s.isLead c then s.checkDeadlines c s.pw.target (t :: (s.boundTenants c).filter (· != t)) else 0]

end Sys2Proof.Machine
end

