-- ==== Sys2Proof/Machine/Lifecycle.lean ====
section
/-! DEFINITION. Orders of the command serialiser on Carriageway lifecycles and tenant slots, the reports of
their outcomes and the end of a check (R150 to R159, R176, R177, R362, R442). -/

namespace Sys2Proof.Machine

/-! ### Orders and their outcomes (R176, R177, R407, R442) -/

/-- The registers that take writes only in service (R386). -/
def State.inService (s : State) : Bool := s.mgt.stage == 8

/-- The status and reason of the last host order of a subject; the reason is that of the last refused one. -/
def hostStatus (sub : Subject) (status reason : Nat) (s : State) : State :=
  match sub with
  | .lifecycle c => s.modLife c (fun l => { l with orderStatus := status, reason := if status = 5 then reason else l.reason })
  | .power => s.modPw (fun p => { p with orderStatus := status, reason := if status = 5 then reason else p.reason })
  | .link =>
    let w := putFld (s.word 0xD0008) 48 8 status
    s.setWord 0xD0008 (if status = 5 then putFld w 56 8 reason else w)
  | .other => s

/-- The slot that the next order of a path takes: the serialiser has one in each CK_HK cycle, and a slot takes at most one
order from each path, the host's first (R176).  DESIGN CHOICE: orders arrive in the order in which the serialiser takes
them, so that a host order behind a fleet order has a later slot (log 17). -/
def State.nextSlot (s : State) (p : Path) : Nat :=
  let x := s.chain
  let n := max (s.pw.hk / 16000 + 1) (max x.lastHost x.lastFleet)
  match p with
  | .host => if n = x.lastHost ∨ n = x.lastFleet then n + 1 else n
  | .fleet => if n = x.lastFleet then n + 1 else n

/-- The slot of the order that executes: the one it took on arrival. -/
def State.serSlot (s : State) (p : Path) : Nat := s.chain.slot.getD (s.nextSlot p)

/-- A slot is taken. -/
def takeSlot (p : Path) (n : Nat) (s : State) : State :=
  s.modChain (fun x => match p with
    | .host => { x with lastHost := max x.lastHost n }
    | .fleet => { x with lastFleet := max x.lastFleet n })

/-- An order on a subject executes in its slot.  A fleet order in the slot of a host order on the same subject leaves the
host's SUPERSEDED, also where the host's has a check running (R176). -/
def enterSlot (p : Path) (sub : Subject) (s : State) : State :=
  let n := s.serSlot p
  let s := takeSlot p n s
  match p with
  | .host => s.modChain (fun x => { x with hostSlot := some (sub, n) })
  | .fleet =>
    if sub != .other && s.chain.hostSlot == some (sub, n) then
      hostStatus sub 4 0 (s.modChain (fun x => { x with check := x.check.map (fun k => if k.path == .host then { k with mute := true } else k) }))
    else s

/-- The outcome of an order, on its own path (R177). -/
def outcome (p : Path) (sub : Subject) (status reason : Nat) (s : State) : State :=
  match p with
  | .host => hostStatus sub status reason s
  | .fleet => if status = 5 then s.modMgt (fun m => { m with fleetRes := match m.fleetRes with | some r => some r | none => some reason }) else s

/-- An order executes in its slot with an outcome. -/
def report (p : Path) (sub : Subject) (status reason : Nat) (s : State) : State := outcome p sub status reason (enterSlot p sub s)

/-- The outcome OK of a write to a register that is no subject of Table 7.7: it shows in the status of its
block and is never superseded (R176, R177). -/
def reportPlain (p : Path) (sub : Subject) (s : State) : State := outcome p sub 0 0 (enterSlot p .other s)

/-- Orders are held: a check runs, earlier orders still wait (R442), or the Housekeeper, which carries the command
serialiser, has stopped (R396). -/
def State.holding (s : State) : Bool := s.chain.check.isSome || !s.chain.held.isEmpty || s.mgt.hkStopped

/-- The RWL fields of a word are locked: their owning enable is held set (Table 17.2). -/
def State.rwlLocked (s : State) (off : Nat) : Bool :=
  if off = 0x10010 then s.host.hdmEn
  else if off = 0x10020 then s.host.landEn
  else if 0x10048 ≤ off ∧ off < 0x10060 then s.host.evt.enable
  else if 0x14000 ≤ off ∧ off < 0x14000 + 0x20 * 1088 then (s.ring ((off - 0x14000) / 32)).state != 0
  else if 0x20000 ≤ off ∧ off < 0x30000 then (s.tenant ((off - 0x20000) / 64)).bound
  else if 0x30000 ≤ off ∧ off < 0x34000 then (s.tenant ((off - 0x30000) / 16)).bound
  else if 0x40000 ≤ off ∧ off < 0x50000 then decide (0x20 ≤ off % 0x400) && s.enabled ((off - 0x40000) / 0x400)
  else decide (0xD1000 ≤ off ∧ off < 0xD1800 ∨ 0xD2000 ≤ off ∧ off < 0xD2800) && s.enabled ((off - 0xD1000) / 32 % 64)

/-- The lock of a word's RWL fields for the write that executes, judged once, on its arrival (R414). -/
def State.lockedNow (s : State) (off : Nat) : Bool := if s.chain.slot.isSome then s.chain.locked.contains off else s.rwlLocked off

/-- Offset of a word of CWY_GRANT. -/
def grantOff (c k : Nat) : Nat := cwyBase c + 0x100 + 8 * k

/-- Offsets of a frame's words. -/
def frameOffs (off n : Nat) : List Nat := (List.range n).map (fun k => off + 8 * k)

/-- The words of an access that it finds locked as it arrives (R414). -/
def State.lockedOf (s : State) (i : Instr) : List Nat :=
  (match i with
    | .grantWrite _ c k _ => [grantOff c k]
    | .hdmMapWrite _ => [0x10010]
    | .landMapWrite _ => [0x10020]
    | .registerWrite _ off _ _ => [off / 8 * 8]
    | .regWrite _ off words => frameOffs off words.length
    | _ => []).filter s.rwlLocked

/-- The path on which an order arrives. -/
def orderPath : Instr → Path
  | .cwyEnable p _ | .cwyDisable p _ | .cwyResume p _ _ | .grantWrite p _ _ _ | .jobFreqWrite p _ | .pwrCapWrite p _
  | .lnkTorusWrite p _ | .portMapWrite p _ _ | .lnkThruWrite p _ _ | .registerWrite p _ _ _
  | .winCfgWrite p _ | .fenceClear p _ | .clrIso p | .portDisable p _ _ | .retrain p _ => p
  | .regWrite _ _ _ | .regRead _ _ _ => .fleet
  | _ => .host

/-- An order is held with its slot and its locks, which are judged once, on arrival (R176, R414, R442). -/
def hold (i : Instr) (s : State) : State :=
  let p := orderPath i
  let n := s.serSlot p
  let l := if s.chain.slot.isSome then s.chain.locked else s.lockedOf i
  (takeSlot p n s).modChain (fun x => { x with held := x.held ++ [{ slot := n, instr := i, locked := l }] })

/-- An order that a running check holds back waits in arrival order (R442). -/
def orderly (i : Instr) (f : State → State) (s : State) : State := if s.holding then hold i s else f s

/-- Earlier register accesses of the path wait: a later one waits behind them (R416).  DEDUCED: nothing waits so while the
Housekeeper is stopped or the device is out of service, so that its recovery goes on (log 198). -/
def State.waitsBehind (s : State) (p : Path) : Bool :=
  s.inService && !s.mgt.hkStopped && s.chain.held.any (fun h => orderPath h.instr == p)

/-- A register access executes in its turn on its path (R416). -/
def inTurn (i : Instr) (f : State → State) (s : State) : State := if s.waitsBehind (orderPath i) then hold i s else f s

/-- The Carriageway whose enable or resume check runs. -/
def State.checked (s : State) : Option Nat :=
  match s.chain.check with
  | some k => match k.kind with | .enable c => some c | .resume c => some c | .bind _ => none
  | none => none

/-- A lifecycle order is held while the check of another Carriageway, or of a binding, runs. -/
def lifeOrder (c : Nat) (i : Instr) (f : State → State) (s : State) : State :=
  if s.checked == some c then f s else orderly i f s

/-- The fleet frame that an order's outcome will answer later. -/
def takeReply (p : Path) (s : State) : Option THead × State :=
  match p with
  | .host => (none, s)
  | .fleet => (s.mgt.fleetReply, s.modMgt (fun m => { m with fleetReply := none }))

/-! ### Enable, disable, resume (R152 to R155) -/

/-- Lines of the container and the key of a Carriageway for which the host owes its write-back (R360). -/
def State.owedLines (s : State) (c : Nat) : List Nat :=
  (s.host.snooped.map (·.1)).filter (fun l => [(s.itinBase c, s.totalLen c), (s.keyAddr c, 1952)].any (overlap (s.hdmBase + 64 * l, 64)))

/-- A check starts: its verdict is that of the state now (R442).  A line of the container or the key that the host may
hold modified is snooped; what the host writes back is the line as the check finds it (`rejudge`, R360).  On a resume the
container has been read-only since the enable, and no write-back of it is owed (R137). -/
def startCheck (p : Path) (c : Nat) (resume : Bool) (s : State) : State :=
  let x := takeReply p (enterSlot p (.lifecycle c) s)
  let v := s.enableVerdict c resume
  let s := hbmSnoop (s.itinBase c) (s.itin c 24 8) (hbmSnoop (s.keyAddr c) 1952 x.2)
  let s := s.modChain (fun y => { y with
    check := some { kind := if resume then .resume c else .enable c, path := p, verdict := v, reply := x.1, lines := s.owedLines c } })
  s.modLife c (fun l => { l with state := .checking, enable := true, path := p })

/-- The lines of a write are all ones for which the host owes its write-back (R360). -/
def State.writesBack (s : State) (ls : List Nat) : Bool := ls.all (fun l => (tget s.host.snooped l).isSome)

/-- The host writes back lines that the running check snooped: the check judges them as written.  DEDUCED: until the
last of them is back the check starts over with each (log 158). -/
def rejudge (ls : List Nat) (s : State) : State :=
  match s.chain.check with
  | none => s
  | some k =>
    if !ls.any k.lines.contains then s
    else
      let v := match k.kind with
        | .enable c => (s.modLife c (fun l => { l with state := .disabled, enable := false })).enableVerdict c false
        | .resume c => (s.modLife c (fun l => { l with state := .stopped })).enableVerdict c true
        | .bind _ => k.verdict
      s.modChain (fun x => { x with check := some { k with verdict := v, lines := k.lines.filter (fun l => !ls.contains l) } })

/-- Writing 1 to enable. -/
def enableNow (p : Path) (c : Nat) (s : State) : State :=
  if (s.cwy c).life.state == .disabled then startCheck p c false s else report p (.lifecycle c) 0 0 s

/-- Writing 0 to enable. -/
def disableNow (p : Path) (c : Nat) (s : State) : State :=
  let s := match (s.cwy c).life.state with
    | .checking => flush s (pendSweep (toDisabled c ((dropCheck s).modLife c (fun l => { l with reason := 0 }))))
    | .starting | .stopped => flush s (pendSweep (toDisabled c (s.modLife c (fun l => { l with stopCause := 1 }))))
    | .running => s.modLife c (fun l => { l with state := .stopping, enable := false })
    | _ => s
  report p (.lifecycle c) 0 0 s

/-- A CWY_CTRL write that carries resume (R155).  DEDUCED (log 155): with enable 0 it abandons the check in CHECKING,
which R155's examples of actions leave out and R132 gives. -/
def resumeCwyNow (p : Path) (c : Nat) (en : Bool) (s : State) : State :=
  match (s.cwy c).life.state, en with
  | .disabled, true => enableNow p c s
  | .checking, false => disableNow p c s
  | .starting, false => disableNow p c s
  | .running, false => disableNow p c s
  | .stopped, false => disableNow p c s
  | .stopped, true => startCheck p c true s
  | _, _ => report p (.lifecycle c) 5 0x66 s

/-- Registers of CWY_, TEN_ and most other blocks take no write before READY (R386). -/
def inReady (f : State → State) (s : State) : State := if s.inService then f s else s

def cwyEnableOp (p : Path) (c : Nat) : State → State :=
  inReady (fun s => if 64 ≤ c then s else lifeOrder c (.cwyEnable p c) (enableNow p c) s)
def cwyDisableOp (p : Path) (c : Nat) : State → State :=
  inReady (fun s => if 64 ≤ c then s else lifeOrder c (.cwyDisable p c) (disableNow p c) s)
def cwyResumeOp (p : Path) (c : Nat) (en : Bool) : State → State :=
  inReady (fun s => if 64 ≤ c then s else lifeOrder c (.cwyResume p c en) (resumeCwyNow p c en) s)

/-- CWY_ENABLE (R152). -/
def execCwyEnable (p : Path) (c : Nat) (s : State) : Host.Outcome State Fault Refusal := go s (cwyEnableOp p c)

/-- CWY_DISABLE (R153). -/
def execCwyDisable (p : Path) (c : Nat) (s : State) : Host.Outcome State Fault Refusal := go s (cwyDisableOp p c)

/-- CWY_RESUME (R155). -/
def execCwyResume (p : Path) (c : Nat) (en : Bool) (s : State) : Host.Outcome State Fault Refusal := go s (cwyResumeOp p c en)

/-- Girder images of the container loaded into the scalar program memories (Girder images). -/
def loadImages (c : Nat) (s : State) : State :=
  foldS (s.images c) (fun s o =>
    let code := o + 64 + 8 * s.itin c (o + 2) 2
    let m := memSlice s.hbm (s.itinBase c + code) (s.itin c (o + 4) 4)
    s.modGirder (girNo (s.itin c o 1) (s.itin c (o + 1) 1)) (fun g => { g with prog := m })) s

/-- A passed check: the Carriageway enters STARTING (R152, R155). An enable starts at step 0 with a fresh
far key (R202) and takes its Pelind slots (R326).  The check has all write-backs of its lines: a later write is a write to a
locked container (R137). -/
def passCheck (c : Nat) (resume : Bool) (s : State) : State :=
  let build := s.itinBuild c
  let s := hbmSnoop (s.itinBase c) (s.itin c 24 8) (hbmSnoop (s.keyAddr c) 1952 s)
  let ls := s.owedLines c
  let s := s.modHost (fun h => { h with snooped := h.snooped.filter (fun e => !ls.contains e.1) })
  let dig := shake 64 (memBytes s.hbm (s.keyAddr c) 1952)
  let s := loadImages c s
  if resume then
    s.modCwy c (fun x => { x with life := { x.life with state := .starting, stopCause := 0, keyDigest := dig }, ramped := false })
  else
    let k := drawRandom 32 s
    let s := k.2.modCwy c (fun x => { x with
      life := { x.life with state := .starting, stopCause := 0, buildId := build, keyDigest := dig, step := 0, aborts := 0, replays := 0
                            sealed := 0, started := false, farKey := k.1, farCtr := 0 }
      run := {}, ramped := false })
    takeSlots c s

/-- The outcome of an ended enable or resume check (R132, R152, R155).  In halt-safe a Carriageway that has passed is stopped
at once: no body runs (R268; log 217). -/
def finishCheck (c : Nat) (resume : Bool) (k : Check) (s : State) : State :=
  let s := if k.verdict = 0 then (passCheck c resume s).when s.ras.haltSafe (askStop c 5) else flush s (pendSweep (toDisabled c s))
  let s := if (k.path == .host && !k.mute) || k.verdict = 0 then s else s.modLife c (fun l => { l with reason := k.verdict })
  let s := if k.mute then s else outcome k.path (.lifecycle c) (if k.verdict = 0 then 0 else 5) k.verdict s
  let s := s.modMgt (fun m => { m with fleetRes := none })
  match k.reply with
  | some f => trestleRespond f (if k.verdict = 0 then 0 else 5) k.verdict [] s
  | none => s

/-! ### Grants (R362) -/

/-- 2 MiB granules of a carve-out. -/
def State.granules (s : State) (c : Nat) : List Nat := (List.range (s.grant c 416 18)).map (fun i => s.grant c 384 18 + i)

/-- A Pier's shadow at an address reaches into one of the granules. -/
def shadowIn (gs : List Nat) (a : Nat) : Bool := gs.any (fun g => overlap (g * 2 ^ 21, 2 ^ 21) (a, imageLen))

/-- Protected granules leave a carve-out: zeroed, then unprotected; a lost shadow, of a layer in force or of one staged,
empties the weights. -/
def dropGranules (c : Nat) (gs : List Nat) (s : State) : State :=
  let w := (s.cwy c).w
  let held := (w.layers ++ w.staged).any (fun y => y.2.piers.any (fun e => shadowIn gs e.2))
  let s := { s with bays := s.bays.map (fun b => (b.1, { b.2 with desc := b.2.desc.filter (fun e => !(e.2.1 == c && (held || shadowIn gs e.2.2.2))) })) }
  let s := foldS gs (fun s g => hbmZero (g * 2 ^ 21) (2 ^ 21) s) s
  let s := s.modHost (fun h => { h with prot := h.prot.filter (fun g => !gs.contains g) })
  if held then s.modW c (fun w => { w with wstate := 0, layers := [], staged := [], digests := [], versions := [], nModel := 0, keyId := [] }) else s

/-- Writable bits of CWY_GRANT word k. -/
def grantMask (k : Nat) : Nat :=
  if k < 6 then 2 ^ 64 - 1 else if k = 6 then 0x3FFFF + 0x3FFFF * 2 ^ 32
  else if k = 7 then 0x7FF + 0x7FF * 2 ^ 16 + 0x7FF * 2 ^ 32 + 0x7FF * 2 ^ 48 else if k < 12 then 2 ^ 64 - 1 else 0

/-- A word of CWY_GRANT stored, unless the Carriageway was not DISABLED when the write arrived (R150, R414). -/
def grantNow (p : Path) (c k : Nat) (w : Word) (s : State) : State :=
  let s :=
    if s.lockedNow (grantOff c k) then s
    else
      let old := s.granules c
      let s := s.setWord (grantOff c k) (w.toNat &&& grantMask k)
      let now := s.granules c
      dropGranules c (old.filter (fun g => s.host.prot.contains g && !now.contains g)) s
  report p (.lifecycle c) 0 0 s

def grantWriteOp (p : Path) (c k : Nat) (w : Word) : State → State :=
  inReady (fun s => if 64 ≤ c || 16 ≤ k then s else lifeOrder c (.grantWrite p c k w) (grantNow p c k w) s)

/-- GRANT_WRITE (R362). -/
def execGrantWrite (p : Path) (c k : Nat) (w : Word) (s : State) : Host.Outcome State Fault Refusal := goMem s (grantWriteOp p c k w)

/-! ### Tenants (R157, R159) -/

/-- A slot becomes bound; with a model key delivered earlier its keys stand as they are. -/
def setBound (t : Nat) (s : State) : State := s.modTenant t (fun x => { x with bound := true, unbinding := false })

/-- Writing 1 to bound: at once for a DISABLED Carriageway, whose enable makes the checks, else by checks 9 and 11 (R157). -/
def bindNow (t : Nat) (s : State) : State :=
  if (s.tenant t).bound then s
  else if (s.cwy (s.tenCwy t)).life.state == .disabled then setBound t s
  else
    let v := s.bindVerdict t
    s.modChain (fun x => { x with check := some { kind := .bind t, path := .host, verdict := v } })

def tenantBindOp (t : Nat) : State → State :=
  inReady (fun s => if 1024 ≤ t then s else orderly (.tenantBind t) (bindNow t) s)

/-- TENANT_BIND (R157). -/
def execTenantBind (t : Nat) (s : State) : Host.Outcome State Fault Refusal := go s (tenantBindOp t)

/-- Writing 0 to bound (R159): at the next good seal from RUNNING or STOPPING, else at once. -/
def unbindNow (t : Nat) (s : State) : State :=
  if !(s.tenant t).bound || (s.tenant t).unbinding then s
  else if s.inState (s.tenCwy t) [.running, .stopping] then s.modTenant t (fun x => { x with unbinding := true })
  else flush s (finishUnbind t s)

def tenantUnbindOp (t : Nat) : State → State :=
  inReady (fun s => if 1024 ≤ t then s else orderly (.tenantUnbind t) (unbindNow t) s)

/-- TENANT_UNBIND (R159). -/
def execTenantUnbind (t : Nat) (s : State) : Host.Outcome State Fault Refusal := go s (tenantUnbindOp t)

/-- The outcome of a binding check (R157). -/
def finishBind (t : Nat) (k : Check) (s : State) : State :=
  if k.verdict = 0 then setBound t s else s.modTenant t (fun x => { x with reason := k.verdict })

end Sys2Proof.Machine
end

