-- ==== Sys2Proof/Machine/Rings.lean ====
section
/-! DEFINITION. Rings, doorbells and the validation of descriptors on requests, queries, certificates and
hints (sections 7, 8, 15). -/

namespace Sys2Proof.Machine

/-! ### Doorbells (R371 to R373) -/

def ringCount : Nat := 1088

/-- The data of a doorbell line arrives: that of the read which is out, or of one issued now.  DESIGN CHOICE: the answer
of the read that an enable or a change of mode issued comes with the ring's next DOORBELL_SNOOP or DOORBELL_POLL (log 194). -/
def lineArrives (r sqTail cqHead : Nat) (s : State) : State :=
  doorbell r sqTail cqHead
    (if (s.ring r).awaits then s.modRing r (fun x => { x with awaits := false }) else readDoorbell r s)

/-- DOORBELL_SNOOP (R371): the Shared copy is given up and the line read again. -/
def doorbellSnoopOp (r sqTail cqHead : Nat) (s : State) : State :=
  if (s.ring r).state != 1 || s.host.polling || !(s.ring r).shared then s else lineArrives r sqTail cqHead s

/-- DOORBELL_SNOOP (R371). -/
def execDoorbellSnoop (r sqTail cqHead : Nat) (s : State) : Host.Outcome State Fault Refusal := go s (doorbellSnoopOp r sqTail cqHead)

/-- DOORBELL_POLL (R372). -/
def doorbellPollOp (r sqTail cqHead : Nat) (s : State) : State :=
  if (s.ring r).state != 1 || !s.host.polling then s else lineArrives r sqTail cqHead s

def execDoorbellPoll (r sqTail cqHead : Nat) (s : State) : Host.Outcome State Fault Refusal := go s (doorbellPollOp r sqTail cqHead)

/-- Rings in ON, ascending. -/
def State.onRings (s : State) : List Nat := (s.host.rings.filter (fun e => e.2.state == 1)).map (·.1)

/-- DOORBELL_MODE_CHANGE (R373): the new mode applies, and the line of every ring in ON is read at once; `lines` brings
the data of the reads that have answered. -/
def doorbellModeOp (lines : List (Nat × Nat × Nat)) (s : State) : State :=
  if s.host.polling == s.wantPoll then s
  else
    let p := s.wantPoll
    let s := s.modHost (fun h => { h with polling := p, rings := h.rings.map (fun e => (e.1, { e.2 with shared := false, awaits := false })) })
    let s := foldS s.onRings (fun s r => askDoorbell r s) s
    foldS (lines.filter (fun l => (s.ring l.1).state == 1)) (fun s l => lineArrives l.1 l.2.1 l.2.2 s) s

/-- DOORBELL_MODE_CHANGE (R373). -/
def execDoorbellModeChange (lines : List (Nat × Nat × Nat)) (s : State) : Host.Outcome State Fault Refusal := go s (doorbellModeOp lines)

/-- DESCRIPTOR_READ_COMPLETE (R375): the oldest read in flight ends; its descriptors await validation. -/
def descReadOp (r : Nat) (descs : List Bytes) (s : State) : State :=
  let b := s
  match (s.ring r).reading with
  | [] => s
  | (i, n) :: rest =>
    let ds := (List.range n).map (fun k => ((i + k) % 2 ^ 32, slice (descs.getD k []) 0 64))
    let s := s.modRing r (fun x => { x with
      reading := rest, fetched := x.fetched ++ ds, sqHead := (x.sqHead + n) % 2 ^ 32, outstanding := x.outstanding + n })
    flush b (tryFetch r s)

/-- DESCRIPTOR_READ_COMPLETE (R375). -/
def execDescriptorReadComplete (r : Nat) (descs : List Bytes) (s : State) : Host.Outcome State Fault Refusal := go s (descReadOp r descs)

/-! ### Ring states (R370) -/

/-- Held completions are written when a ring leaves ERROR. -/
def writeHeld (r : Nat) (s : State) : State :=
  let hs := (s.ring r).held
  foldS hs (fun s h => cqWrite r h s) (s.modRing r (fun x => { x with held := [] }))

/-- The configuration of a ring that its enable refuses. -/
def State.ringBad (s : State) (r : Nat) : Bool :=
  decide (s.sqLog r < 6 ∨ 16 < s.sqLog r) || decide (s.cqLog r < 6 ∨ 20 < s.cqLog r) || s.ctlBase r == 0 || s.sqBase r == 0 || s.cqBase r == 0

def ringEnableNow (r : Nat) (s : State) : State :=
  match (s.ring r).state with
  | 0 =>
    if s.ringBad r then s.modRing r (fun x => { x with reason := 0x61 })
    else askDoorbell r (statusLine r (s.modRing r (fun x => { state := 1, enable := true, cause := x.cause, reason := x.reason })))
  | 3 =>
    let b := s.modRing r (fun x => { x with state := 1, enable := true })
    let s := flush b (writeHeld r b)
    askDoorbell r (tryFetch r (statusLine r s))
  | _ => s

def ringEnableOp (r : Nat) (s : State) : State := if ringCount ≤ r then s else orderly (.ringEnable r) (ringEnableNow r) s

/-- RING_ENABLE (R370). -/
def execRingEnable (r : Nat) (s : State) : Host.Outcome State Fault Refusal := go s (ringEnableOp r)

/-- Writing 0 to enable: a ring in ON or ERROR drains; nothing more is fetched.  The enable stays held set until
the ring is OFF (R419). -/
def ringDisableNow (r : Nat) (s : State) : State :=
  match (s.ring r).state with
  | 1 => statusLine r (s.modRing r (fun x => { x with state := 2, reading := [], shared := false, awaits := false }))
  | 3 =>
    let b := s.modRing r (fun x => { x with state := 2 })
    statusLine r (flush b (writeHeld r b))
  | _ => s

def ringDisableOp (r : Nat) (s : State) : State := if ringCount ≤ r then s else orderly (.ringDisable r) (ringDisableNow r) s

/-- RING_DISABLE (R370). -/
def execRingDisable (r : Nat) (s : State) : Host.Outcome State Fault Refusal := go s (ringDisableOp r)

/-- RING_OFF (R370): a draining ring with nothing outstanding is OFF. -/
def ringOffOp (r : Nat) (s : State) : State :=
  let x := s.ring r
  if x.state == 2 && x.outstanding == 0 then s.modRing r (fun x => { x with state := 0, enable := false, fetched := [], held := [], wrote := [], shared := false }) else s

/-- RING_OFF (R370). -/
def execRingOff (r : Nat) (s : State) : Host.Outcome State Fault Refusal := go s (ringOffOp r)

/-- The ring's latest n completions were not written: they wait in their reservations (R367, R370). -/
def unwrite (r n : Nat) (s : State) : State :=
  s.modRing r (fun x =>
    let lost := x.wrote.take n
    { x with cqTail := (x.cqTail + 2 ^ 32 - lost.length) % 2 ^ 32, outstanding := x.outstanding + lost.length
             held := lost.reverse ++ x.held, wrote := x.wrote.drop n })

/-- RING_ACCESS_FAILURE (R370). -/
def ringFailOp (r cause n : Nat) (s : State) : State :=
  if (s.ring r).state == 1 || (s.ring r).state == 2 then ringError r cause (if cause = 1 then unwrite r n s else s) else s

/-- RING_ACCESS_FAILURE (R370). -/
def execRingAccessFailure (r cause n : Nat) (s : State) : Host.Outcome State Fault Refusal := go s (ringFailOp r cause n)

/-! ### Common checks of a descriptor (R438) -/

/-- Byte ranges of a descriptor that are reserved for a kind, kind and tag aside (Table 15.5). -/
def reservedBytes (k : Nat) (d : Bytes) : List (Nat × Nat) :=
  let op := getLe d 1 1
  match k with
  | 1 => [(3, 1), (6, 2)]
  | 2 => [(1, 7), (16, 48)]
  | 3 => [(1, 7), (20, 44)]
  | 4 => [(1, 7), (16, 48)]
  | 5 => [(1, 7), (16, 48)]
  | 6 => [(2, 6), (36, 28)]
  | 7 => if op = 1 then [(4, 4), (32, 32)] else [(2, 6), (32, 32)]
  | 8 => [(1, 7), (18, 46)]
  | 9 => [(1, 1), (4, 4), (40, 24)]
  | 10 => [(1, 1), (4, 4), (17, 47)]
  | _ => [(1, 7), (25, 39)]

/-- Landing offset and length that lie outside the landing region (Table 15.5). -/
def State.landBad (s : State) (off len : Nat) : Bool :=
  off % 4096 != 0 || decide (fld (s.word 0x10020) 16 7 * 2 ^ 30 < off + len) || !s.host.landEn

/-- A field of a descriptor outside its range (R376, Table 15.5). -/
def State.descBad (s : State) (k : Nat) (d : Bytes) : Bool :=
  (reservedBytes k d).any (fun e => !allZero (slice d e.1 e.2)) ||
  match k with
  | 1 =>
    let f := getLe d 1 1; let top := getLe d 2 1; let tmp := getLe d 4 2
    decide (8 ≤ f) || fld f 2 2 ≥ 2 || (if bit f 1 then decide (top < 1 ∨ 64 < top) || tmp == 0 || decide (0x7F80 ≤ tmp) else top != 0 || tmp != 0) ||
    getLe d 16 8 % 4 != 0 || getLe d 28 4 == 0 || getLe d 48 8 % 64 != 0 || (!bit f 0 && getLe d 56 8 != 0)
  | 6 => decide (1 < getLe d 1 1) || getLe d 24 8 % 64 != 0 || getLe d 32 4 % 64 != 0 || getLe d 32 4 == 0
  | 7 => decide (1 < getLe d 1 1) || s.landBad (getLe d 16 8) (getLe d 24 8) ||
      (getLe d 1 1 == 1 && (getLe d 24 8 != 1664 || decide (1024 ≤ getLe d 2 2)))
  | 8 => getLe d 17 1 == 0
  | 9 => decide (1024 ≤ getLe d 2 2) || s.landBad (getLe d 16 8) (getLe d 24 8) || getLe d 32 8 % 64 != 0
  | 10 => decide (1024 ≤ getLe d 2 2)
  | 11 => decide (getLe d 16 4 < 200 ∨ 100000 < getLe d 16 4) || decide (getLe d 20 4 < 1 ∨ 100000 < getLe d 20 4) ||
      decide (getLe d 24 1 < 1 ∨ 3 < getLe d 24 1)
  | _ => false

/-- A kind not accepted on a ring (Table 7.2). -/
def State.kindBad (s : State) (r k : Nat) (d : Bytes) : Bool :=
  if r < 1024 then k == 7 || k == 8 || ((k == 9 || k == 10) && getLe d 2 2 != s.ringOwner r)
  else decide (1 ≤ k ∧ k ≤ 6)

/-- Steps 2 to 4 of R438: 0 when none fails. -/
def State.descCode (s : State) (r k : Nat) (d : Bytes) : Nat :=
  let t := s.tenant (s.ringOwner r)
  firstFail [(s.descBad k d, 0x61), (decide (r < 1024) && (!t.bound || t.unbinding), 0x6D), (s.kindBad r k d, 0x69)]

/-- A refused descriptor completes at validation (R164). -/
def refuse (r i k code : Nat) (d : Bytes) (s : State) : State := complete r (slice d 8 8) i k 5 code 0 0 0 s

/-- The oldest unvalidated descriptor of a ring, when it is of the kind and form, is judged under R438 and
then by the kind's own rules. -/
def judgeOn (r k : Nat) (sel : Bytes → Bool) (f : Nat → Bytes → State → State) (s : State) : State :=
  let b := s
  match (s.ring r).fetched with
  | [] => s
  | (i, d) :: rest =>
    if getLe d 0 1 != k || !sel d then s
    else
      let s := s.modRing r (fun x => { x with fetched := rest })
      let s := { s with nOrders := s.nOrders + 1 }
      let c := s.descCode r k d
      flush b (if c != 0 then refuse r i k c d s else f i d s)

/-- The same for a kind with one form. -/
def judge (r k : Nat) (f : Nat → Bytes → State → State) : State → State := judgeOn r k (fun _ => true) f

/-- RESERVED_KIND (R5, R438): refused with 0x60. -/
def reservedKindOp (r : Nat) (s : State) : State :=
  let b := s
  match (s.ring r).fetched with
  | [] => s
  | (i, d) :: rest =>
    let k := getLe d 0 1
    if 1 ≤ k ∧ k ≤ 11 then s
    else flush b (refuse r i k 0x60 d { s.modRing r (fun x => { x with fetched := rest }) with nOrders := s.nOrders + 1 })

def execReservedKind (r : Nat) (s : State) : Host.Outcome State Fault Refusal := go s (reservedKindOp r)

/-! ### SUBMIT (R163 to R166, R173) -/

/-- Live requests of a Carriageway, companions in it included; live requests of a tenant. -/
def State.nLive (s : State) (c : Nat) : Nat := (s.reqs.filter (fun e => e.2.cwy == c)).length
def State.nTracked (s : State) (t : Nat) : Nat := (s.reqs.filter (fun e => e.2.tenant == t && !e.2.isComp)).length

/-- The live request of a tenant with a tag. -/
def State.tagged (s : State) (t : Nat) (tag : Bytes) : Option (Nat × Req) :=
  s.reqs.find? (fun e => e.2.tenant == t && !e.2.isComp && e.2.par.tag == tag)

/-- Checks 2 to 8 of R165. -/
def State.submitCode (s : State) (c t : Nat) (d : Bytes) : Nat :=
  let n := getLe d 24 4; let m := getLe d 28 4
  let draft := fld (getLe d 1 1) 2 2 == 1
  let dc := s.draftCwy c
  firstFail [
    (!s.inState c [.starting, .running], 0x66),
    ((s.tagged t (slice d 8 8)).isSome, 0x63),
    (n == 0 || decide (s.tenPrompt t < n), 0x67),
    (decide (s.tenCtx t < n + m), 0x68),
    (draft && !(s.draftEn c && s.inState dc [.running]), 0x6C),
    (decide (1024 * s.thShare c ≤ s.nLive c) || (draft && decide (1024 * s.thShare dc ≤ s.nLive dc)), 0x64),
    (decide (s.tenTracked t ≤ s.nTracked t), 0x65)]

/-- Token identifiers of the stop list. -/
def stopsOf (d : Bytes) : List Nat := (List.range 4).map (fun i => getLe d (32 + 4 * i) 4)

/-- An accepted SUBMIT enters QUEUED with the lowest free handle and the Carriageway's next sequence number. -/
def acceptSubmit (r c t i : Nat) (d : Bytes) (s : State) : State :=
  let f := getLe d 1 1
  let seed := if bit f 0 then (slice d 56 8, s) else drawRandom 8 s
  let s := seed.2
  let w := (s.cwy c).w
  let ten := s.tenant t
  let sp := if ten.spEn then some ten.spandrel else none
  let h := lowestFree (s.reqs.map (·.1))
  let par : Params := { ring := r, dindex := i, tag := slice d 8 8, prompt := getLe d 16 8, promptLen := getLe d 24 4, maxNew := getLe d 28 4
                        stops := stopsOf d, sampled := bit f 1, temp := getLe d 4 2, topk := getLe d 2 1, seed := seed.1, drawn := !bit f 0
                        draft := fld f 2 2 == 1, buf := getLe d 48 8 }
  let cert : CertRec := { wset := w.wset, versions := w.vector, spec := par.draft
                          spDigest := match sp with | some n => (s.sp n).digest | none => zeros 64
                          spVersion := match sp with | some n => (s.sp n).version | none => 0 }
  let q : Req := { cwy := c, tenant := t, seq := (s.cwy c).life.seq, par := par, spandrel := sp, lookup := s.tenShare t && s.kvLayers c != 0
                   cert := cert }
  let s := { s with reqs := tset s.reqs h q }
  let s := s.modLife c (fun l => { l with seq := l.seq + 1 })
  let s := match sp with | some n => s.modSp n (fun x => { x with pins := x.pins + 1 }) | none => s
  let s :=
    if par.draft then
      let dc := s.draftCwy c
      let g := lowestFree (s.reqs.map (·.1))
      let y : Req := { cwy := dc, tenant := t, seq := (s.cwy dc).life.seq, par := { par with ring := 0xFFFFFFFF }, inserting := false
                       cert := { wset := (s.cwy dc).w.wset, versions := (s.cwy dc).w.vector, spDigest := zeros 64 } }
      let s := { s with reqs := tset s.reqs g y }
      (s.modLife dc (fun l => { l with seq := l.seq + 1 })).modReq h (fun q => { q with companion := some g })
    else s
  lookNext h s

def submitOp (r : Nat) : State → State := judge r 1 (fun i d s =>
  let t := s.ringOwner r
  let c := s.tenCwy t
  let e := s.submitCode c t d
  if e != 0 then refuse r i 1 e d s else acceptSubmit r c t i d s)

/-- SUBMIT (R165). -/
def execSubmit (r : Nat) (s : State) : Host.Outcome State Fault Refusal := go s (submitOp r)

/-! ### Orders on requests (R161, R175, R199) -/

/-- The order that a descriptor places. -/
def pendingOf (r i ttl : Nat) (d : Bytes) (s : State) : Pending :=
  { ring := r, dindex := i, tag := slice d 8 8, ttl := ttl, num := s.nOrders - 1 }

/-- A request order finds its request, or is refused with 0x62. -/
def onTag (r k : Nat) (f : Nat → Req → Nat → Bytes → State → State) : State → State := judge r k (fun i d s =>
  match s.tagged (s.ringOwner r) (slice d 8 8) with
  | none => refuse r i k 0x62 d s
  | some (h, q) => f h q i d s)

def State.isStopped (s : State) (c : Nat) : Bool := s.inState c [.stopped]

/-- CANCEL: pending until the next good seal; in STOPPED it acts at validation. -/
def cancelOp (r : Nat) : State → State := onTag r 2 (fun h q i d s =>
  if q.cancel.isSome then refuse r i 2 0x6A d s
  else
    let s := s.modReq h (fun x => { x with cancel := some (pendingOf r i 0 d s) })
    if s.isStopped q.cwy then endReq h 2 s else s)

/-- CANCEL (R175). -/
def execCancel (r : Nat) (s : State) : Host.Outcome State Fault Refusal := go s (cancelOp r)

/-- The pause intent of a request (R175). -/
def Req.wantsPause (q : Req) : Bool := if q.phase == .paused then q.resume.isNone else q.pause.isSome

/-- PAUSE: in STOPPED it acts at validation, superseding a pending RESUME. -/
def pauseOp (r : Nat) : State → State := onTag r 3 (fun h q i d s =>
  let ttl := if getLe d 16 4 = 0 then s.far q.tenant 96 32 else getLe d 16 4
  if q.wantsPause || q.acting.isSome || q.pause.isSome then refuse r i 3 0x6A d s
  else if ttl = 0 then refuse r i 3 0x61 d s
  else
    let p := pendingOf r i ttl d s
    if s.isStopped q.cwy then
      let s := match q.resume with
        | some o => complete o.ring o.tag o.dindex 4 4 0 0 0 0 (s.modReq h (fun x => { x with resume := none }))
        | none => s
      pauseNow q.cwy h p s
    else s.modReq h (fun x => { x with pause := some p }))

/-- PAUSE (R199). -/
def execPause (r : Nat) (s : State) : Host.Outcome State Fault Refusal := goMem s (pauseOp r)

/-- RESUME: acts at a Keystone (R204). -/
def resumeOp (r : Nat) : State → State := onTag r 4 (fun h q i d s =>
  if !q.wantsPause || q.acting.isSome || q.resume.isSome then refuse r i 4 0x6A d s
  else s.modReq h (fun x => { x with resume := some (pendingOf r i 0 d s) }))

/-- RESUME (R175). -/
def execResume (r : Nat) (s : State) : Host.Outcome State Fault Refusal := go s (resumeOp r)

/-- QUERY (R380): the request as the last committed Keystone left it. -/
def queryOp (r : Nat) : State → State := onTag r 5 (fun _ q i d s =>
  let st := match q.phase with | .queued => 0 | .prefill => 1 | .decode => 2 | .paused => 3
  complete r (slice d 8 8) i 5 0 0 0 (st + q.gen.length * 2 ^ 32) q.seq s)

/-- QUERY (R380). -/
def execQuery (r : Nat) (s : State) : Host.Outcome State Fault Refusal := go s (queryOp r)

/-! ### FETCH_CERT and HINT -/

def fetchCertOp (r : Nat) : State → State := judge r 6 (fun i d s =>
  fetchServe { ring := r, dindex := i, tag := slice d 8 8, sel := getLe d 1 1, key := getLe d 16 8, dest := getLe d 24 8, cap := getLe d 32 4 } s)

/-- FETCH_CERT (R252). -/
def execFetchCert (r : Nat) (s : State) : Host.Outcome State Fault Refusal := go s (fetchCertOp r)

/-- A hint's window in reference ticks (R313). -/
def hintOp (r : Nat) : State → State := judge r 11 (fun i d s =>
  let t0 := s.pw.refTicks + 100 * getLe d 16 4
  let h : Hint := { level := getLe d 24 1, start := t0, stop := t0 + 100 * getLe d 20 4 }
  let s := s.modEn (fun e => { e with hints := tset e.hints e.nHints h, nHints := e.nHints + 1 })
  complete r (slice d 8 8) i 11 0 0 0 0 0 s)

/-- HINT (R313). -/
def execHint (r : Nat) (s : State) : Host.Outcome State Fault Refusal := go s (hintOp r)

/-! ### Reads of prompts (R172, R195) -/

/-- Prompt tokens recorded from a position. -/
def putToks (l : List Nat) (a : Nat) (toks : List Nat) : List Nat :=
  (List.range (max l.length (a + toks.length))).map (fun i => if a ≤ i ∧ i < a + toks.length then toks.getD (i - a) 0 else l.getD i 0)

/-- The part of read context tokens that are prompt tokens is kept. -/
def Req.keepToks (q : Req) (a : Nat) (toks : List Nat) : Req :=
  { q with ptoks := putToks q.ptoks a (toks.take (q.par.promptLen - a)) }

/-- PROMPT_CHUNK_READ (R172): the request's next chunk is resident. -/
def promptChunkOp (h : Nat) (toks : List Nat) (s : State) : State :=
  match s.req h with
  | none => s
  | some q =>
    if q.ready || q.lookup || q.isComp || q.phase == .decode then s
    else
      let ts := (List.range q.chunkLen).map (fun i => toks.getD i 0)
      s.modReq h (fun q => { q.keepToks q.chunkStart ts with chunk := ts, ready := true })

/-- PROMPT_CHUNK_READ (R172). -/
def execPromptChunkRead (h : Nat) (toks : List Nat) (s : State) : Host.Outcome State Fault Refusal := go s (promptChunkOp h toks)

/-- The host-access event (R364, Table 15.9). -/
def hostAccessEvent (ring what : Nat) (tag : Bytes) (s : State) : State :=
  post 3 0xFF (leBytes 2 ring ++ leBytes 1 what ++ zeros 5 ++ slice tag 0 8) s

/-- A failed access of a request cancels it at the next Keystone. -/
def failRequest (h what : Nat) (s : State) : State :=
  match s.req h with
  | none => s
  | some q => hostAccessEvent q.par.ring what q.par.tag (s.modReq h (fun q => { q with hostFail := true }))

/-- PREFIX_LOOKUP_READ (R195): the next page matches a node, which is pinned, or the lookup stops. -/
def lookupReadOp (h : Nat) (toks : Option (List Nat)) (s : State) : State :=
  match s.req h with
  | none => s
  | some q =>
    if !q.lookup then s
    else match toks with
    | none => failRequest h 0 (s.modReq h (fun q => { q with lookup := false }))
    | some ts =>
      let page := (List.range 16).map (fun i => ts.getD i 0)
      let s := s.modReq h (fun q => q.keepToks (16 * q.hits.length) page)
      let ns := (s.cwy q.cwy).kv.nodes
      let parent := q.hits.getLast?.getD 0xFFFFFFFF
      let ph := match tget ns parent with | some x => x.hash | none => []
      let hash := pageHash ph page q.salt
      match ns.find? (fun e => e.2.hash == hash && e.2.parent == parent && e.2.toks == page) with
      | some (n, _) => lookNext h (pinNode q.cwy n (s.modReq h (fun q => { q with hits := q.hits ++ [n] })))
      | none => lookNext h (s.modReq h (fun q => { q with lookup := false }))

/-- PREFIX_LOOKUP_READ (R195). -/
def execPrefixLookupRead (h : Nat) (toks : Option (List Nat)) (s : State) : Host.Outcome State Fault Refusal := go s (lookupReadOp h toks)

/-! ### HOST_ACCESS_FAILURE (R364) -/

/-- A fetch whose writes are out is changed before its completion. -/
def failFetch (ring dindex written : Nat) (rewrite : Bool) (s : State) : State :=
  match s.certs.done.find? (fun e => e.1.ring == ring && e.1.dindex == dindex) with
  | none => s
  | some (f, _) =>
    let s := s.when rewrite (hostWrite (s.ringPasid ring) f.dest (fetchHead 1 0 0 0 0 0))
    let s := s.modCerts (fun c => { c with done := c.done.map (fun e => if e.1 == f then (f, written) else e) })
    hostAccessEvent ring 2 f.tag s

def hostFailOp (a : HostAccess) (s : State) : State :=
  match a with
  | .prompt h => failRequest h 0 s
  | .tokenBuffer h => failRequest h 1 s
  | .certItem r i => failFetch r i 64 true s
  | .certHeader r i => failFetch r i 0 false s

/-- HOST_ACCESS_FAILURE (R364). -/
def execHostAccessFailure (a : HostAccess) (s : State) : Host.Outcome State Fault Refusal := go s (hostFailOp a)

end Sys2Proof.Machine
end

