-- ==== Sys2Proof/Machine/Loads.lean ====
section
/-! DEFINITION. Weight bundles, key envelopes, layer replacement, bulk writes and Spandrels (section 9). -/

namespace Sys2Proof.Machine

/-! ### Bundles (Tables 9.2, 9.3) -/

/-- HBM address of the landing region. -/
def State.landBase (s : State) : Nat := fld (s.word 0x10020) 0 9 * 2 ^ 30

/-- Header length H of a bundle with M model layers. -/
def headLen (m : Nat) : Nat := ceilDiv (64 + 64 * m) 4096 * 4096

/-- Fields of a load's header. -/
def Load.plain (l : Load) : Nat := getLe l.hdr 32 8
def Load.nLayers (l : Load) : Nat := getLe l.hdr 40 2
def Load.version (l : Load) : Nat := getLe l.hdr 28 4
def Load.keyId (l : Load) : Bytes := slice l.hdr 8 16
def Load.chunks (l : Load) : Nat := ceilDiv l.plain (2 ^ 22)
def Load.entry (l : Load) (m : Nat) : Bytes := slice l.hdr (64 + 64 * m) 64

/-- A bundle header that fails step 3 of R214. -/
def headerBad (kind : Nat) (h : Bytes) (len : Nat) : Bool :=
  let m := getLe h 40 2; let plain := getLe h 32 8
  getLe h 0 4 != 0x57424E58 || getLe h 4 2 != 1 || getLe h 6 1 != kind || getLe h 7 1 != 0 || getLe h 28 4 == 0 || plain == 0 ||
  (if kind = 0 then decide (m < 1 ∨ 1024 < m) else m != 0) || !allZero (slice h 42 22) ||
  decide (len < headLen m + plain + 16 * ceilDiv plain (2 ^ 22))

/-- The model key of a bundle: that of a tenant bound to the Carriageway with a valid model key (R214 step 4). -/
def State.bundleKey (s : State) (c : Nat) (id : Bytes) : Option Bytes :=
  ((s.boundTenants c).find? (fun t => (s.tenant t).keyState == 1 && (match (s.tenant t).modelKey with | some k => k.1 == id | none => false))).bind
    (fun t => (s.tenant t).modelKey.map (·.2))

/-- wstate after a load ends without being accepted. -/
def restState (w : Weights) : Nat := if w.wstate == 1 then (if w.layers.isEmpty then 0 else 2) else w.wstate

/-- The H bytes that the header of the bundle at an address occupies (Table 9.2). -/
def State.bundleHead (s : State) (a : Nat) : Bytes :=
  let m := memLe s.hbm (a + 40) 2
  memBytes s.hbm a (headLen (if m ≤ 1024 then m else 0))

/-- A bundle is judged by steps 3 and 4 of R214 and its load begins. -/
def beginLoad (c : Nat) (l : Load) (s : State) : State :=
  let a := s.landBase + l.off
  let h := s.bundleHead a
  let no := fun (code : Nat) => complete l.ring l.tag l.dindex 7 5 code 0 0 0 s
  if headerBad 0 h l.len then no 0x61
  else match s.bundleKey c (slice h 8 16) with
    | none => no 0x41
    | some k => s.modW c (fun w => { w with load := some { l with hdr := h, key := k }
                                            wstate := if s.enabled c then w.wstate else 1 })

/-- Waiting bundles begin, oldest first, until one is under way. -/
def nextLoad (fuel c : Nat) (s : State) : State :=
  match fuel with
  | 0 => s
  | k + 1 =>
    match (s.cwy c).w.load, (s.cwy c).w.loadWait with
    | none, l :: r => nextLoad k c (beginLoad c l (s.modW c (fun w => { w with loadWait := r })))
    | _, _ => s

/-- A load ends with a completion, and the next one begins. -/
def endLoad (c status reason a : Nat) (s : State) : State :=
  match (s.cwy c).w.load with
  | none => s
  | some l =>
    let s := complete l.ring l.tag l.dindex 7 status reason 0 a 0 s
    let s := s.modW c (fun w => { w with load := none, wstate := restState w })
    nextLoad ((s.cwy c).w.loadWait.length + 1) c s

/-- States that refuse weight orders (R214 step 2). -/
def State.loadBlocked (s : State) (c : Nat) : Bool := s.inState c [.checking, .stopping] || (s.cwy c).w.replace.isSome

def loadWeightsOp (r : Nat) : State → State := judgeOn r 7 (fun d => getLe d 1 1 != 1) (fun i d s =>
  let c := r - 1024
  if s.loadBlocked c then refuse r i 7 0x66 d s
  else
    let l : Load := { ring := r, dindex := i, tag := slice d 8 8, off := getLe d 16 8, len := getLe d 24 8, hdr := [], key := [] }
    nextLoad 1 c (s.modW c (fun w => { w with loadWait := w.loadWait ++ [l] })))

/-- LOAD_WEIGHTS (R214). -/
def execLoadWeights (r : Nat) (s : State) : Host.Outcome State Fault Refusal := go s (loadWeightsOp r)

/-! ### Records -/

/-- Standard codebooks (Table 2.2). -/
def standardBook (code : Nat) : Option (List Int) :=
  match code with
  | 0 => some [0, 1, 2, 3, 4, 5, 6, 7, -8, -7, -6, -5, -4, -3, -2, -1]
  | 1 => some [0, 1, 2, 3, 4, 6, 8, 12, 0, -1, -2, -3, -4, -6, -8, -12]
  | 3 => some [0, 1, -2, -1, 0, 0, 0, 0, 0, 0, 0, 0, 0, 0, 0, 0]
  | 4 => some [0, 1, 0, -1, 0, 0, 0, 0, 0, 0, 0, 0, 0, 0, 0, 0]
  | _ => none

/-- An index above 3 in the data or sentinel cells. -/
def wideIndex (m : Mem) : Bool :=
  let hi := fun (a n : Nat) => (memBytes m a n).any (fun b => decide (3 < b.toNat % 16 ∨ 3 < b.toNat / 16))
  hi 0 131072 || hi 135168 2048

/-- A malformed Pier image (R23, R28, R51, R209). -/
def malformed (m : Mem) : Bool :=
  let code := (memRead m 137216).toNat
  let book := (List.range 16).map (codebook m)
  decide (5 < code) || !allZero (memBytes m 137217 15) || !allZero (memBytes m 137517 719) ||
  book.any (fun v => decide (v < -16 ∨ 15 < v)) || (match standardBook code with | some l => l != book | none => false) ||
  (imageMode m == 1 && ((book.drop 4).any (· != 0) || wideIndex m)) ||
  (List.range 528).any (fun j => decide (10 < rangeShift m j)) ||
  (List.range 512).any (fun i => (List.range 8).any (fun k => csumV m i k != rnd (groupW m i k) 4)) ||
  decide (254 < memLe m 137512 2) || decide (5 < (memRead m 137514).toNat) || decide (15 < (memRead m 137516).toNat)

/-- Span, Bay and logical Pier that an image programs. -/
def imagePier (m : Mem) : Nat × Nat × Nat := ((memRead m 137514).toNat, (memRead m 137515).toNat, (memRead m 137516).toNat)

/-- Mode of the images of a table of layers for a Bay, one layer apart. -/
def State.layersMode (s : State) (ls : Tab LayerW) (but bn : Nat) : Option Nat :=
  (ls.filter (fun y => y.1 != but)).findSome? (fun y => (y.2.piers.find? (fun e => bayNo e.1.1 e.1.2.1 == bn)).map (fun e => s.modeAt e.2))

/-- Weight mode that a Bay must keep (R52): that of its programmed Piers, else of an image of the same bundle, of a bulk
write that waits, or of another layer that stands staged for it. -/
def State.modeKept (s : State) (c : Nat) (l : Load) (layer bn : Nat) : Option Nat :=
  if (s.bay bn).programmed 17 then (s.bay bn).mode
  else match s.layersMode l.layers 256 bn with
    | some m => some m
    | none => (match (s.bay bn).bulk with
      | e :: _ => some (s.modeAt e.2.src)
      | [] => s.layersMode ((s.cwy c).w.staged.filter (fun y => (tget l.layers y.1).isNone)) layer bn)

/-- R209 over an image of a local layer. -/
def State.imageCode (s : State) (c : Nat) (l : Load) (payload : Bytes) : Nat :=
  let m := memPut [] 0 payload
  let p := imagePier m
  let bn := bayNo p.1 p.2.1
  firstFail [
    (crc32c (slice payload 0 138236) != getLe payload 138236 4, 0x72),
    (malformed m, 0x70),
    (!s.grantsBay c bn, 0x10),
    ((match s.modeKept c l (memLe m 137512 2) bn with | some k => k != imageMode m | none => false), 0x71)]

/-- An itinerary container stands where CWY_ITIN points: that of a Carriageway past its check, or one that has the magic,
the format and a length of Table 6.2 there (DESIGN CHOICE in DISABLED, where the spec names no other way to find it; log 149). -/
def State.hasItin (s : State) (c : Nat) : Bool :=
  s.enabled c || (s.itin c 0 4 == 0x54494E58 && s.itin c 4 2 == 1 && decide (8192 ≤ s.totalLen c ∧ s.totalLen c ≤ 2 ^ 30) &&
    inside (s.itinBase c, s.totalLen c) (s.carve c))

/-- Byte ranges of the carve-out that no record may write (R214 step 6). -/
def State.taken (s : State) (c : Nat) : List (Nat × Nat) :=
  let w := (s.cwy c).w
  let b := s.carveBase c
  let gran := fun (e : Nat × Nat) => (b + e.1 * 2 ^ 21, e.2 * 2 ^ 21)
  let staged : Tab LayerW := match w.replace with
    | some r => w.staged.filter (fun y => decide (r.first ≤ y.1 ∧ y.1 < r.first + r.count))
    | none => []
  (s.regions c).map gran ++ (if s.hasItin c then (s.itinBase c, s.totalLen c) :: (s.ranges c).map gran else []) ++
  s.bays.flatMap (fun y => y.2.desc.map (fun e => (e.2.2.2, imageLen))) ++
  staged.flatMap (fun y => y.2.piers.map (fun e => (e.2, imageLen)) ++ y.2.blocks)

/-- A record header out of range (Table 9.3): that of a Spandrel bundle holds HBM blocks only. -/
def recordHeadBad (spandrel : Bool) (m : Nat) (h : Bytes) : Bool :=
  let t := getLe h 0 2; let n := getLe h 8 8
  (t != 2 && (t != 1 || spandrel)) || !allZero (slice h 5 3) || !allZero (slice h 24 8) || n % 64 != 0 || getLe h 16 8 % 64 != 0 ||
  (t == 1 && n != imageLen) ||
  (if spandrel then getLe h 2 2 != 0 || getLe h 4 1 != 255 else decide (m ≤ getLe h 2 2) || getLe h 4 1 == 255)

/-- The bundle carries a layer whose version is not below its own: step 3 of R214.  A layer that has never been carried has
no version yet. -/
def State.oldVersion (s : State) (c : Nat) (spandrel : Bool) (l : Load) (h : Bytes) : Bool :=
  !spandrel && (s.cwy c).w.layers.any (fun y => y.2.model == getLe h 2 2 && decide (l.version ≤ tgetD (s.cwy c).w.versions (getLe h 2 2) 0))

/-- The code of one record under step 6 of R214: 0 when it passes. -/
def State.recordCode (s : State) (c : Nat) (spandrel : Bool) (l : Load) (payload : Bytes) (h : Bytes) (a : Nat) : Nat :=
  let n := payload.length
  firstFail [
    (spandrel && decide (64 * fld (s.word (cwyBase c + 0x80)) 0 23 < getLe h 16 8 + n), 0x61),
    (!inside (a, n) (s.carve c) || (n != 0 && (s.taken c).any (overlap (a, n))), 0x12),
    ((getLe h 0 2 == 1 && s.imageCode c l payload != 0), s.imageCode c l payload)]

/-- A checked record is written into the carve-out and noted for its layer: a Pier image for the layer that the image
names (R208; DESIGN CHOICE where the record's own local_layer differs, log 147), a block for the layer of its record. -/
def keepRecord (l : Load) (h payload : Bytes) (a : Nat) (s : State) : Load × State :=
  let ml := getLe h 2 2; let ll := if getLe h 0 2 = 1 then getLe payload 137512 2 else getLe h 4 1
  let y := tgetD l.layers ll { model := ml, models := l.nLayers, table := (List.range l.nLayers).map l.entry, digest := l.entry ml, version := l.version }
  let y := if getLe h 0 2 = 1 then { y with piers := y.piers ++ [(imagePier (memPut [] 0 payload), a)] }
    else { y with blocks := y.blocks ++ [(a, payload.length)] }
  ({ l with recs := l.recs ++ [(ml, h ++ payload)], layers := tset l.layers ll y }, if payload.isEmpty then s else ownWrite a payload s)

/-- A record's failure under step 6 is kept, the first one first. -/
def Load.fail (l : Load) (code : Nat) : Load := { l with code := if l.code = 0 then code else l.code }

/-- The whole records of the authenticated stream.  Answers true for a version that fails step 3 of R214, which stands
before every later step; a failure of step 6 is kept, and nothing more is written. -/
def parseRecords (fuel c : Nat) (spandrel : Bool) (l : Load) (s : State) : Bool × Load × State :=
  match fuel with
  | 0 => (false, l, s)
  | k + 1 =>
    let h := slice l.rest 0 32
    let n := getLe h 8 8
    if l.rest.length < 32 || l.lost then (false, l, s)
    else if recordHeadBad spandrel l.nLayers h then (false, { l.fail 0x61 with lost := true }, s)
    else if s.oldVersion c spandrel l h then (true, l, s)
    else if l.rest.length < 32 + n then (false, l, s)
    else
      let payload := slice l.rest 32 n
      let a := s.carveBase c + l.dest + getLe h 16 8
      let code := s.recordCode c spandrel l payload h a
      let l := { l with rest := l.rest.drop (32 + n) }
      if code != 0 || l.code != 0 then parseRecords k c spandrel (l.fail code) s
      else
        let x := keepRecord l h payload a s
        parseRecords k c spandrel x.1 x.2

/-- One chunk is authenticated (R210) and the records it completes are checked and written; answers the reason with
which the bundle is refused, in the order of the steps of R214. -/
def takeChunk (c : Nat) (spandrel : Bool) (l : Load) (fail : ReadFail) (s : State) : Nat × Load × State :=
  let n := min (2 ^ 22) (l.plain - l.chunk * 2 ^ 22)
  let a := s.landBase + l.off + headLen l.nLayers + l.chunk * (2 ^ 22 + 16)
  let m := s.unitRead a (n + 16) fail
  let s := unitReads (some c) a (n + 16) fail s
  let iv := leBytes 8 l.chunk ++ slice l.hdr 24 4
  let aad := shake 32 l.hdr ++ leBytes 8 l.chunk
  match gcmOpen l.key iv aad (memBytes m 0 n) (memBytes m n 16) with
  | none => (0x43, l, s)
  | some pt =>
    let l := { l with rest := l.rest ++ pt, chunk := l.chunk + 1 }
    let x := parseRecords (l.rest.length / 32 + 1) c spandrel l s
    let y := x.2.1
    if x.1 then (0x61, x.2)
    else if y.chunk < l.chunks then (0, x.2)
    else ((if y.rest.isEmpty || y.lost then y else y.fail 0x61).code, x.2)

/-- The Spandrel load of a slot that is still under way. -/
def State.spLoad (s : State) (c n : Nat) : Option Load :=
  if (s.sp n).state == 1 then (s.cwy c).w.spLoads.find? (fun l => l.slot == n) else none

/-- A Spandrel load ends refused: its slot is free again. -/
def failSpandrel (c n code : Nat) (l : Load) (s : State) : State :=
  let s := complete l.ring l.tag l.dindex 9 5 code 0 0 0 s
  (s.modW c (fun w => { w with spLoads := w.spLoads.filter (fun x => x.slot != n) })).modSp n (fun _ => {})

def bundleChunkOp (c : Nat) (spandrel : Option Nat) (fail : ReadFail) (s : State) : State :=
  match spandrel with
  | some n =>
    match s.spLoad c n with
    | none => s
    | some l =>
      if l.chunks ≤ l.chunk then s
      else
        let x := takeChunk c true l fail s
        if x.1 != 0 then flush s (failSpandrel c n x.1 l x.2.2)
        else x.2.2.modW c (fun w => { w with spLoads := w.spLoads.map (fun y => if y.slot == n then x.2.1 else y) })
  | none =>
    match (s.cwy c).w.load with
    | none => s
    | some l =>
      if l.chunks ≤ l.chunk then s
      else
        let x := takeChunk c false l fail s
        if x.1 != 0 then flush s (endLoad c 5 x.1 0 x.2.2) else x.2.2.modW c (fun w => { w with load := some x.2.1 })

/-- BUNDLE_CHUNK (R210). -/
def execBundleChunk (c : Nat) (read : ChunkRead) (s : State) : Host.Outcome State Fault Refusal :=
  goMem s (bundleChunkOp c read.spandrel read.fail)

/-! ### Acceptance (R211, R213, R215) -/

/-- Digests of step 7: each carried layer's records hash to its table entry; each other layer's current digest
is its entry, unless the Carriageway has no weight set yet, when the table is taken over. -/
def digestsGood (w : Weights) (l : Load) : Bool :=
  (List.range l.nLayers).all (fun m =>
    let rs := l.recs.filter (fun e => e.1 == m)
    if rs.isEmpty then w.nModel == 0 || slice (tgetD w.digests m []) 0 64 == l.entry m
    else shake 64 (rs.flatMap (·.2)) == l.entry m)

/-- The weight key_id is set: every tenant with another model key loses its valid key (R213). -/
def setKeyId (c : Nat) (id : Bytes) (s : State) : State :=
  let s := s.modW c (fun w => { w with keyId := id })
  foldS ((List.range 1024).filter (fun t => s.tenCwy t == c)) (fun s t => s.modTenant t (fun x =>
    match x.modelKey with
    | some k => if k.1 == id then x else { x with keyState := 2, reason := 0x41 }
    | none => x)) s

/-- Every image of a load's layers is bulk-written into its Pier, unless that is FENCED, and named by its descriptor
(R74, R215). -/
def writeImages (c : Nat) (l : Load) (s : State) : State :=
  foldS l.layers (fun s y => writePiers c 0 y.2 (setDescs c y.1 y.2 s)) s

/-- An accepted load whose Piers are all READY completes OK with its version (R215). -/
def finishLoad (c : Nat) (s : State) : State :=
  match (s.cwy c).w.load with
  | none => s
  | some l =>
    if l.accepted && !s.bays.any (fun b => b.2.bulk.any (fun e => e.2.cwy == c && e.2.why == 0)) then
      endLoad c 0 0 l.version (s.modW c (fun w => { w with wstate := if w.wstate == 1 then 2 else w.wstate }))
    else s

/-- The bundle carries a layer that a pending REPLACE_LAYER uses: it may not replace that staging (R215). -/
def Weights.stagedInUse (w : Weights) (l : Load) : Bool :=
  match w.replace with
  | some r => l.layers.any (fun y => decide (r.first ≤ y.1 ∧ y.1 < r.first + r.count))
  | none => false

/-- DESIGN CHOICE: a bundle whose order was accepted before the REPLACE_LAYER that uses one of its layers is refused with
0x66, the reason of step 2: R215 lets it replace no staging in use, and gives no reason (log 151).  DEDUCED: the mode of R52 is
judged again before the images of a load are written (log 176). -/
def bundleLoadDoneOp (c : Nat) (s : State) : State :=
  match (s.cwy c).w.load with
  | none => s
  | some l =>
    if l.accepted || l.chunk < l.chunks then s
    else if (s.cwy c).w.stagedInUse l then flush s (endLoad c 5 0x66 0 s)
    else if !digestsGood (s.cwy c).w l then flush s (endLoad c 5 0x43 0 s)
    else if !s.enabled c && l.layers.any (fun y => s.layerClash y.2) then flush s (endLoad c 5 0x71 0 s)
    else
      let b := s
      let s := s.when (s.cwy c).w.keyId.isEmpty (setKeyId c l.keyId)
      if s.enabled c then
        let s := s.modW c (fun w => { w with staged := l.layers.foldl (fun t y => tset t y.1 y.2) w.staged })
        flush b (endLoad c 0 0 l.version s)
      else
        let s := (s.modW c (·.adopt l.nLayers l.version ((List.range l.nLayers).map l.entry))).modW c (fun w => { w with
          load := some { l with accepted := true }, nModel := l.nLayers
          layers := l.layers.foldl (fun t y => tset t y.1 y.2) w.layers
          digests := l.layers.foldl (fun t y => tset t y.2.model y.2.digest) w.digests
          versions := l.layers.foldl (fun t y => tset t y.2.model y.2.version) w.versions })
        flush b (finishLoad c (writeImages c l s))

/-- BUNDLE_LOAD_DONE (R215). -/
def execBundleLoadDone (c : Nat) (s : State) : Host.Outcome State Fault Refusal := go s (bundleLoadDoneOp c)

/-! ### Key envelopes (R212, R213) -/

/-- An envelope of Table 9.4 opened under additional data: the key, or none when a step fails. -/
def openEnvelope (env aad : Bytes) : Option Bytes :=
  match gcmOpen (shake 32 (decapsulate (slice env 0 1568) ++ aad)) (zeros 12) aad (slice env 1600 32) (slice env 1632 16) with
  | some k => if shake 16 k = slice env 1568 16 then some k else none
  | none => none

def keyEnvelopeOp (r : Nat) (fail : ReadFail) : State → State := judgeOn r 7 (fun d => getLe d 1 1 == 1) (fun i d s =>
  let c := r - 1024
  let t := getLe d 2 2
  let a := s.landBase + getLe d 16 8
  let env := memBytes (s.unitRead a 1664 fail) 0 1664
  let s := unitReads (some c) a 1664 fail s
  let id := slice env 1568 16
  let purpose := getLe env 1584 1
  let aad := id ++ leBytes 1 purpose ++ leBytes 1 c ++ leBytes 2 t ++ shake 16 idKey
  if decide (1 < purpose) || !allZero (slice env 1585 15) || !allZero (slice env 1648 16) then refuse r i 7 0x61 d s
  else match openEnvelope env aad with
    | none => refuse r i 7 0x42 d (s.modTenant t (fun x => { x with keyState := 2 }))
    | some k =>
      let w := (s.cwy c).w
      let s := s.modTenant t (fun x =>
        if purpose = 1 then { x with spKey := some (id, k) }
        else if w.keyId.isEmpty || w.keyId == id then { x with modelKey := some (id, k), keyState := 1 }
        else { x with modelKey := some (id, k), keyState := 2, reason := 0x41 })
      complete r (slice d 8 8) i 7 0 0 0 0 0 s)

/-- LOAD_WEIGHTS_KEY_ENVELOPE (R212). -/
def execLoadWeightsKeyEnvelope (r : EnvelopeRead) (s : State) : Host.Outcome State Fault Refusal := go s (keyEnvelopeOp r.ring r.fail)

/-! ### REPLACE_LAYER (R216) -/

/-- The layers of a replacement that runs with no hold, until one has bulk writes to wait for, or its end (R216). -/
def goOnReplace (fuel c : Nat) (s : State) : State :=
  match fuel, (s.cwy c).w.replace with
  | k + 1, some r =>
    if r.code ≠ 0 then refuseReplace c s
    else if r.count ≤ r.done then endReplace c 0 0 r.count s
    else
      let s := startLayer c (r.first + r.done) s
      if s.replaceBusy c then s
      else goOnReplace k c (if (s.cwy c).w.replace.any (fun r => r.code != 0) then s else layerDone c (r.first + r.done) s)
  | _, _ => s

/-- Some image of staged layers has another weight mode than the Piers programmed in its Bay since it was staged (R52). -/
def State.stagedClash (s : State) (c : Nat) (ls : List Nat) : Bool :=
  ls.any (fun l => match tget (s.cwy c).w.staged l with
    | some y => y.piers.any (fun e => let b := s.bay (bayNo e.1.1 e.1.2.1); b.programmed 17 && b.mode != some (s.modeAt e.2))
    | none => false)

/-- DEDUCED: an image of the other weight mode is refused with 0x71, the reason of R52, also where the conflict has
arisen only after it was staged (log 176). -/
def replaceLayerOp (r : Nat) : State → State := judge r 8 (fun i d s =>
  let c := r - 1024
  let w := (s.cwy c).w
  let first := getLe d 16 1; let count := getLe d 17 1
  if s.inState c [.checking, .starting, .stopping] || w.replace.isSome then refuse r i 8 0x66 d s
  else if (List.range count).any (fun k => (tget w.staged (first + k)).isNone) then refuse r i 8 0x75 d s
  else if s.stagedClash c ((List.range count).map (first + ·)) then refuse r i 8 0x71 d s
  else
    let s := s.modW c (fun w => { w with replace := some { ring := r, dindex := i, tag := slice d 8 8, first := first, count := count }, wstate := 3 })
    if s.inState c [.disabled, .stopped] then goOnReplace 257 c s else s)

/-- REPLACE_LAYER (R216). -/
def execReplaceLayer (r : Nat) (s : State) : Host.Outcome State Fault Refusal := go s (replaceLayerOp r)

/-! ### Bulk writes (R74, R77, R215, R216, R220, R262) -/

/-- A layer of a replacement without a hold whose bulk writes have all ended is replaced, and the next begins. -/
def stepReplace (c : Nat) (s : State) : State :=
  match (s.cwy c).w.replace with
  | none => s
  | some r =>
    if s.replaceBusy c || !s.inState c [.disabled, .stopped] then s else goOnReplace 257 c (layerDone c (r.first + r.done) s)

/-- A bulk write that runs has ended (R74): a load, or a replacement without a hold, goes on. -/
def bulkWriteDoneOp (span bay phys : Nat) (readBack : Bool) (fail : ReadFail) (s : State) : State :=
  let bn := bayNo span bay
  match (s.bay bn).bulk.head?.filter (fun e => e.1 == phys && e.2.on && s.dieOn span) with
  | none => s
  | some (_, b) =>
    let s0 := s
    let hold := (s.cwy b.cwy).w.wstate == 4
    let s := endBulk span bay phys readBack b fail s
    flush s0 (if b.why = 0 then finishLoad b.cwy s else if b.why = 2 && !hold then stepReplace b.cwy s else s)

/-- BULK_WRITE_DONE (R74). -/
def execBulkWriteDone (span bay phys : Nat) (fin : BulkEnd) (s : State) : Host.Outcome State Fault Refusal :=
  go s (bulkWriteDoneOp span bay phys fin.readBack fin.fail)

/-! ### Spandrels (R222 to R225) -/

/-- Lowest FREE slot that a LOAD_SPANDREL may take (R222). -/
def State.freeSpandrel (s : State) (c : Nat) : Option Nat :=
  (List.range 256).find? (fun n => (s.sp n).state == 0 && bit (s.grant c 512 256) n &&
    ((s.cwy c).life.state == .disabled || bit (s.itinSlots c) n))

def loadSpandrelOp (r : Nat) : State → State := judge r 9 (fun i d s =>
  let c := if r < 1024 then s.ringCwy r else r - 1024
  let t := getLe d 2 2
  let ten := s.tenant t
  let a := s.landBase + getLe d 16 8
  let h := s.bundleHead a
  if !ten.bound || ten.unbinding || s.tenCwy t != c then refuse r i 9 0x6D d s
  else if s.loadBlocked c then refuse r i 9 0x66 d s
  else if headerBad 1 h (getLe d 24 8) then refuse r i 9 0x61 d s
  else match ten.spKey with
    | none => refuse r i 9 0x41 d s
    | some k =>
      if k.1 != slice h 8 16 then refuse r i 9 0x41 d s
      else match s.freeSpandrel c with
        | none => refuse r i 9 0x73 d s
        | some n =>
          let l : Load := { ring := r, dindex := i, tag := slice d 8 8, off := getLe d 16 8, len := getLe d 24 8, hdr := h, key := k.2
                            tenant := t, slot := n, dest := getLe d 32 8 }
          let s := s.modW c (fun w => { w with spLoads := w.spLoads.filter (fun x => x.slot != n) ++ [l] })
          s.modSp n (fun _ => { state := 1, num := s.nOrders, tenant := t, cwy := c, base := s.carveBase c + l.dest, version := getLe h 28 4
                                order := some (r, i, slice d 8 8) }))

/-- LOAD_SPANDREL (R222). -/
def execLoadSpandrel (r : Nat) (s : State) : Host.Outcome State Fault Refusal := go s (loadSpandrelOp r)

/-- A verified and placed Spandrel: READY, switched to at once unless the Carriageway runs (R223). -/
def spandrelPlacedOp (n : Nat) (s : State) : State :=
  let c := (s.sp n).cwy
  match s.spLoad c n with
  | none => s
  | some l =>
    if l.chunk < l.chunks then s
    else
      let ext := (l.layers.flatMap (fun y => y.2.blocks)).foldl (fun m e => max m (e.1 + e.2 - (s.sp n).base)) 0
      let b := s
      let s := s.modW c (fun w => { w with spLoads := w.spLoads.filter (fun x => x.slot != n) })
      let s := s.modSp n (fun x => { x with state := 2, lenU := ext / 64, digest := shake 64 (l.recs.flatMap (·.2)) })
      if s.inState c [.running] then s else flush b (switchSpandrel n s)

/-- SPANDREL_PLACED (R223). -/
def execSpandrelPlaced (n : Nat) (s : State) : Host.Outcome State Fault Refusal := go s (spandrelPlacedOp n)

/-- DESIGN CHOICE: on the administrative ring a tenant that is not bound to the Carriageway is refused with 0x6D, the
reason that R222 gives for LOAD_SPANDREL; R225 gives 0x74 for the slot alone (log 152). -/
def retireSpandrelOp (r : Nat) : State → State := judge r 10 (fun i d s =>
  let c := if r < 1024 then s.ringCwy r else r - 1024
  let t := getLe d 2 2; let n := getLe d 16 1
  let x := s.sp n
  if !(s.tenant t).bound || s.tenCwy t != c then refuse r i 10 0x6D d s
  else if x.tenant != t || !(x.state == 2 || x.state == 3) then refuse r i 10 0x74 d s
  else if x.state == 2 then
    complete r (slice d 8 8) i 10 0 0 0 0 0 ((supersedeSp n s).modSp n (fun _ => {}))
  else
    let s := s.modSp n (fun y => { y with retiring := true, retireOrd := y.retireOrd ++ [(r, i, slice d 8 8)] })
    if s.inState c [.running, .stopping] then s else retirePending c s)

/-- RETIRE_SPANDREL (R225). -/
def execRetireSpandrel (r : Nat) (s : State) : Host.Outcome State Fault Refusal := go s (retireSpandrelOp r)

/-! ### Refresh (R68 to R71) -/

/-- The logical Pier that a physical one serves, or that a spare is to serve once its remap moves (R77). -/
def State.servedBy (s : State) (bn p : Nat) : Option Nat :=
  match s.logicalOf bn p with
  | some l => some l
  | none => (List.range 16).find? (fun l => s.heir bn (s.phys bn l) == some p)

/-- A READY Pier with its shadow: the owning Carriageway, its layer and the HBM address. -/
def State.pierShadow (s : State) (bn p : Nat) : Option (Nat × Nat × Nat) :=
  if s.pstate bn p != 2 then none else (s.servedBy bn p).bind (s.shadow bn)

/-- The Piers of a Span that the loader refreshes, 17 × Bay + Pier, ascending: READY, with a shadow, in no bulk write, and
not written with a layer that is still to take effect (R68, R73, R217). -/
def State.refreshList (s : State) (span : Nat) : List Nat :=
  (s.bays.filter (fun e => e.1 / 256 == span)).flatMap (fun e => ((List.range 17).filter (fun p =>
    (s.pierShadow e.1 p).isSome && (tget e.2.bulk p).isNone && !(s.servedBy e.1 p).any (fun l => (s.newShadow e.1 l).isSome))).map (fun p => 17 * (e.1 % 256) + p))

/-- The Pier of a Span that the loader reads next: a second read after a CRC failure, else the one that follows the last
one read.  DESIGN CHOICE: the fixed order of R68 is by Bay and physical Pier, ascending (log 138). -/
def State.refreshNext (s : State) (span : Nat) : Option Nat :=
  let l := s.refreshList span
  match tget s.refreshAt span with
  | none => l.head?
  | some a =>
    if l.contains a && (s.pier (bayNo span (a / 17)) (a % 17)).retried then some a
    else match l.find? (fun n => decide (a < n)) with
      | some n => some n
      | none => l.head?

/-- Refresh buffers in use on the Abutment that serves a Span: it holds 128 (R68). -/
def State.refreshBufs (s : State) (span : Nat) : Nat :=
  ((s.bays.filter (fun e => e.1 / 256 / 3 == span / 3)).map (fun e => (e.2.piers.filter (fun p => p.2.refreshBuf.isSome)).length)).sum

/-- REFRESH_READ_DONE: the next Pier's image is in a buffer; a good one starts its row writes, and a second bad one is
reported, naming the logical Pier that it serves (R68, R70).  The read has the ECC and CRC results of R14 and R234. -/
def refreshReadOp (span bay : Nat) (read : RefreshRead) (s : State) : State :=
  let phys := read.phys
  let bn := bayNo span bay
  let x := s.pier bn phys
  if x.refreshBuf.isSome || s.halted || !s.dieOn span || s.refreshNext span != some (17 * bay + phys) || decide (128 ≤ s.refreshBufs span) then s
  else match s.pierShadow bn phys with
  | none => s
  | some (c, l, a) =>
    let fail := { read.fail with crc := read.fail.crc.filter (fun e => fetchCrosses (6 + span / 3) (a + 64 * e.flit)) }
    let img := s.unitRead a imageLen fail
    let s := unitReads (some c) a imageLen fail { s with refreshAt := tset s.refreshAt span (17 * bay + phys) }
    if imageSound img then s.modPier bn phys (fun y => { y with refreshBuf := some img, refreshRow := some 0, retried := false })
    else if !x.retried then { s.modPier bn phys (fun y => { y with retried := true }) with refreshRetry := satAdd 16 s.refreshRetry 1 }
    else
      let s := { s.modPier bn phys (fun y => { y with retried := false }) with refreshFail := satAdd 16 s.refreshFail 1 }
      let s := post 0x20 span (leBytes 1 c ++ leBytes 1 bay ++ leBytes 1 ((s.servedBy bn phys).getD 0)) s
      askStop c 3 (s.modW c (fun w => { w with badLayer := l }))

def execRefreshReadDone (span bay : Nat) (read : RefreshRead) (s : State) : Host.Outcome State Fault Refusal := go s (refreshReadOp span bay read)

/-- The bytes of row r of an image, as offsets and lengths (Table 9.1). -/
def rowParts (r : Nat) : List (Nat × Nat) := [(256 * r, 256), (131072 + 8 * r, 8), (135168 + 4 * r, 4)]

/-- The 268 bytes of a row as they reach its Pier: a flit whose CRC fails on the Viaduct is delivered as it arrived (R14).
DESIGN CHOICE: they travel in five flits, in the order of the parts (log 213). -/
def rowSent (m : Mem) (r : Nat) (crc : List FlitFail) : Mem :=
  patch (memPut [] 0 ((rowParts r).flatMap (fun e => memBytes m e.1 e.2))) crc

/-- A row of a Pier written: its bytes in the order of the parts. -/
def putRow (img : Mem) (r : Nat) (bs : Mem) : Mem :=
  memPut (memPut (memPut img (256 * r) (memBytes bs 0 256)) (131072 + 8 * r) (memBytes bs 256 8)) (135168 + 4 * r) (memBytes bs 264 4)

/-- A row of a Pier may be written in cycles t to t + 15: in the row-write window of its beat, or while it has no beat in
progress (R68). -/
def State.rowSlot (s : State) (bn p t : Nat) : Bool :=
  let w := rowWindow (s.bayMode bn)
  s.dieOn (bn / 256) && decide ((s.pier bn p).rowFree ≤ t) && (s.pierFree bn p t 16 || (s.pier bn p).lastStart.any (fun b => t == b + w))

/-- REFRESH_ROW_WRITE: the next row from the buffer, 16 cycles from t; row 511 completes the refresh and frees the buffer. -/
def refreshRowOp (span bay phys t : Nat) (crc : List FlitFail) (s : State) : State :=
  let bn := bayNo span bay
  let x := s.pier bn phys
  if s.halted || s.pstate bn phys != 2 || (tget (s.bay bn).bulk phys).isSome || !s.rowSlot bn phys t then s
  else match x.refreshRow, x.refreshBuf with
  | some r, some m =>
    let crc := crc.filter (fun e => decide (e.flit < 5))
    let s := foldS crc (fun s e => unitErr ((s.pierShadow bn phys).map (·.1)) (.via e.link) s) s
    let s := s.modPier bn phys (fun x => { x with img := putRow x.img r (rowSent m r crc), refreshRow := some (r + 1), rowFree := t + 16 })
    if r < 511 then s
    else s.modPier bn phys (fun x => { x with refreshRow := none, refreshBuf := none, lastRefresh := s.pw.refTicks, overdue := false })
  | _, _ => s

def execRefreshRowWrite (span bay phys : Nat) (row : RowWrite) (s : State) : Host.Outcome State Fault Refusal :=
  go s (refreshRowOp span bay phys row.t row.crc)

/-- Refresh interval in ticks of a base in ms and a band (Table 3.8, R69): never below 16 ms. -/
def interval (base band : Nat) : Nat := max 1600000 (base * 100000 / 2 ^ band)

/-- A value in force just before a tick, from the values that have ended, with the ticks of their ends, newest first. -/
def heldAt (now_ : Nat) (hist : List (Nat × Nat)) (t : Nat) : Nat :=
  match (hist.filter (fun e => decide (t ≤ e.1))).getLast? with
  | some e => e.2
  | none => now_

/-- The longest interval in force for a Bay during the preceding 128 ms (R71). -/
def State.longest (s : State) (bn : Nat) : Nat :=
  let b := s.bay bn
  let now := s.pw.refTicks
  let base := fld (s.word 0x66000) 0 8
  let ts := (now + 1) :: ((b.bandHist ++ s.baseHist).map (·.1)).filter (fun t => decide (now < t + 12800000))
  (ts.map (fun t => interval (heldAt base s.baseHist t) (heldAt b.band b.bandHist t))).foldl max 0

/-- REFRESH_OVERDUE (R71): beats in flight in the Pier use it while it is overdue. -/
def refreshOverdueOp (span bay phys : Nat) (s : State) : State :=
  let bn := bayNo span bay
  let x := s.pier bn phys
  if s.pstate bn phys != 2 || x.overdue || decide (s.pw.refTicks ≤ x.lastRefresh + 2 * s.longest bn) then s
  else
    let s := foldS (tgetD (s.bay bn).beats phys []) (fun s b => s.modRun b.cwy (fun r => { r with accRed := true })) s
    post 0x21 span ([0] ++ leBytes 1 bay ++ leBytes 1 phys) (s.modPier bn phys (fun y => { y with overdue := true }))

def execRefreshOverdue (span bay phys : Nat) (s : State) : Host.Outcome State Fault Refusal := go s (refreshOverdueOp span bay phys)

end Sys2Proof.Machine
end

