-- ==== Sys2Proof/Machine/Tier.lean ====
section
/-! DEFINITION. The far tier of key-value pages and the open-block cache: lapses, acknowledged copy-out
blocks, restored blocks and rebuilt requests (R193, R201 to R205). -/

namespace Sys2Proof.Machine

/-- TTL_LAPSE (R203): a lapse is applied at the next good seal, or at once when no body runs, also while a barrier or a hold
lasts; STOPPED defers it.  A pending RESUME suspends the time-to-live. -/
def ttlLapseOp (h : Nat) (s : State) : State :=
  match s.req h with
  | none => s
  | some q =>
    let c := q.cwy
    if q.phase != .paused || q.isComp || q.resume.isSome || q.acting.isSome || decide (s.pw.refTicks < q.ttlFrom + 100000 * q.ttl) then s
    else if s.inState c [.starting] || (s.inState c [.running, .stopping] && !(s.cwy c).run.inBody && ((s.cwy c).key.own.isNone || 2 ≤ (s.cwy c).key.kind)) then flush s (endReq h 7 s)
    else s.modReq h (fun q => { q with lapsed := true })

/-- TTL_LAPSE (R203). -/
def execTtlLapse (h : Nat) (s : State) : Host.Outcome State Fault Refusal := go s (ttlLapseOp h)

/-- COPY_OUT_BLOCK_ACK (R201): the block is written and acknowledged; the copy-out ends at a Keystone (`settleCopy`).
On the lead it also tells what another member has acknowledged (log 148). -/
def copyAckOp (h page blk : Nat) (s : State) : State :=
  match s.req h with
  | none => s
  | some q => s.when (q.copying && s.moves q.cwy) (fun s => s.modReq h (fun q => { q with copy := q.copy.filter (· != (page, blk)) }))

/-- COPY_OUT_BLOCK_ACK (R201). -/
def execCopyOutBlockAck (h page blk : Nat) (s : State) : Host.Outcome State Fault Refusal := go s (copyAckOp h page blk)

/-- RESTORE_BLOCK_READ (R204): a block that opens stands; one that fails is read once more, then an event names the
request and the next Keystone rebuilds it (R205).  A block of a page that another member holds has no plaintext here: the
lead learns that it is resident, or, without bytes, that it has failed twice there; the lead, which knows the request's tag,
posts the event (log 148). -/
def restoreReadOp (h page blk : Nat) (ct : Bytes) (s : State) : State :=
  match s.req h with
  | none => s
  | some q =>
    let c := q.cwy
    let done := fun s : State => s.modReq h (fun q => { q with restore := q.restore.filter (· != (page, blk)) })
    let failed := fun s : State =>
      s.when (s.isLead c) (post 0x26 0xFF (leBytes 1 c ++ zeros 7 ++ slice q.par.tag 0 8)) |>.modReq h (fun q => { q with lost := true })
    if !q.restoring || q.lost || !q.restore.contains (page, blk) || !s.moves c then s
    else if !s.holds c page then (if ct.isEmpty then failed s else done s)
    else
      match (s.cwy c).kv.far.find? (fun e => e.1 == h && e.2.1 == page && e.2.2.1 == blk), tget q.newOf page, tget q.farOf page with
      | some (_, _, _, ctr, tag), some f, some ff =>
        match gcmOpen (s.cwy c).life.farKey (farIv ctr) (farAad s c h page blk) (slice ct 0 4096) tag with
        | some pt => done (ownWrite (s.frameAddr c f blk) pt s)
        | none =>
          if q.retried.contains (page, blk) then
            failed s
          else hostRead (some (s.tenPasid q.tenant)) (s.farAddr c q.tenant ff blk) 4096
            (s.modReq h (fun q => { q with retried := (page, blk) :: q.retried }))
      | _, _, _ => s

/-- RESTORE_BLOCK_READ (R204). -/
def execRestoreBlockRead (h page blk : Nat) (ct : List Byte) (s : State) : Host.Outcome State Fault Refusal := goMem s (restoreReadOp h page blk ct)

/-- OPEN_BLOCK_WRITE_VISIBLE (R193): the cache block is free. -/
def openVisibleOp (c blk : Nat) (s : State) : State :=
  match (s.cwy c).kv.open_[blk]? with
  | some o => if o.writing then s.modKv c (fun k => { k with open_ := k.open_.eraseIdx blk }) else s
  | none => s

/-- OPEN_BLOCK_WRITE_VISIBLE (R193). -/
def execOpenBlockWriteVisible (c blk : Nat) (s : State) : Host.Outcome State Fault Refusal := go s (openVisibleOp c blk)

end Sys2Proof.Machine
end

