-- ==== Sys2Proof/Machine/Calib.lean ====
section
/-! DEFINITION. Calibration: the reference chain, calibration beats and the end of a Pier pass (section 12). -/

namespace Sys2Proof.Machine

/-! ### VREF_SAMPLE (R276, R277, R287, R288) -/

/-- Class of a sample (Table 12.2), in units of 100 µV; the probe shift is known on every tenth sample. -/
def vrefClass (v : Int) (shift : Option Int) : Nat :=
  if (match shift with | some d => decide (500 ≤ d) | none => false) then 1
  else if v ≤ -5000 then 3
  else if v.natAbs < 500 then 2
  else if 9500 ≤ v ∧ v ≤ 10500 then 0
  else 4

/-- A pass of a Pier is abandoned. -/
def Pier.noPass (p : Pier) : Pier := { p with calLeft := none }

/-- Staged trims whose pass completed in the 3 ms before a tick are discarded (R287). -/
def Pier.dropStaged (p : Pier) (now : Nat) : Pier :=
  match p.staged with
  | some t => if now < t.tick + 300000 then { p with staged := none } else p
  | none => p

/-- A reference fault is declared (R287): running passes are abandoned, fresh staged trims discarded. -/
def declareFault (code : Nat) (s : State) : State :=
  let now := s.pw.refTicks
  let waiting := (s.bays.filter (fun e => e.2.calPending)).map (·.1)
  let calm : Bay → Bay := fun b => { b with calRunning := false, calPending := false, piers := b.piers.map (fun p : Nat × Pier => (p.1, (p.2.noPass).dropStaged now)) }
  let s := { s with bays := s.bays.map (fun e : Nat × Bay => (e.1, calm e.2)) }
  let s := { s with vref := { s.vref with faulted := true, fault := code, internal := true, refOk := false, faults := satAdd 16 s.vref.faults 1 } }
  foldS waiting (fun s b => triggerPass b s) (post 0x32 6 (leBytes 1 code) s)

/-- Bays in service, ascending. -/
def State.baysUp (s : State) : List Nat := (List.range 1536).filter (fun b => !s.bayOut b)

/-- The fault clears (R288): every Bay is triggered in ascending number. -/
def clearFault (s : State) : State :=
  let s := { s with vref := { s.vref with faulted := false, fault := 0, todo := s.baysUp } }
  foldS (List.range 1536) (fun s b => triggerPass b s) s

/-- What the Span references are held against at a sample, in units of 100 µV: the reading of VREF_CAL, or, while a fault
stands, the internal reference `n` scaled by the ratio of the last good sample; they hold where none was recorded
(Table 12.1, R277). -/
def Vref.heldTo (r : Vref) (n : Nat) : Option Int :=
  if !r.faulted then some r.sample else if r.ratio = 0 then none else some ((n * 65536 / r.ratio : Nat) : Int)

/-- One sample's move of a Span reference: at most 1 tap of 50 µV towards what it is held against (Table 12.1, R288). -/
def tapMove (base v : Int) (tap : Nat) : Nat :=
  let want := clampI (base + 2 * (v - 10000)) 0 4095
  if (tap : Int) < want then tap + 1 else if want < tap then tap - 1 else tap

/-- Every Span reference follows.  What the ADC reads of the internal reference is a free value. -/
def moveTaps (n : Nat) (s : State) : State :=
  match s.vref.heldTo n with
  | none => s
  | some v => { s with vref := { s.vref with taps := (List.range 6).foldl (fun t i => tmod t i 0 (tapMove (Config.refBase i) v)) s.vref.taps } }

/-- VREF_SAMPLE: the sample is classified and counted, a fault declared or cleared (R277), and the Span references move. -/
def vrefSampleOp (v : Int) (s : State) : State := noteAcc (
  let r := s.vref
  let n := r.count + 1
  let code := vrefClass v (if n % 10 = 0 then some (v - r.sample) else none)
  let good := if code = 0 then r.good + 1 else 0
  let bad := if code = 0 then 0 else r.bad + 1
  let x := drawFree s
  let ratio := if code = 0 then x.1 * 65536 / v.toNat else r.ratio
  let s := { x.2 with vref := { r with sample := v, count := n, good := good, bad := bad, ratio := ratio, goods := min 100 (r.goods + b2n (code == 0)) } }
  let s := if bad = 3 ∧ !r.faulted then declareFault code s else if 100 ≤ good ∧ r.faulted then clearFault s else s
  let s := moveTaps x.1 s
  { s with vref := { s.vref with refOk := !s.vref.faulted && s.vref.goods == 100 } })

/-- VREF_SAMPLE (R276). -/
def execVrefSample (v : Int) (s : State) : Host.Outcome State Fault Refusal := go s (vrefSampleOp v)

/-! ### Passes (R278 to R285) -/

/-- A calibration beat from cycle t, when the Pier is free and no row of a refresh waits; it counts as a ballast beat, also
against the ramp share of a Carriageway whose Bay it brings into the running state (R128, R280). -/
def calBeatOp (span bay phys t : Nat) (s : State) : State :=
  let bn := bayNo span bay
  if s.ownSlot bn phys t && s.calWaits bn phys && s.mayHeat bn then calBeat bn phys t (heat bn s) else s

/-- CALIBRATION_BEAT (R280). -/
def execCalibrationBeat (span bay phys t : Nat) (s : State) : Host.Outcome State Fault Refusal := go s (calBeatOp span bay phys t)

/-- Injection level I of a weight mode in steps, and E (R278). -/
def injLevel (mode : Nat) : Int := if mode = 0 then 96 else 24
def injE (mode : Nat) : Int := if mode = 0 then 201326592 else 50331648

/-- New offset and gain of a column (R278); none where the column fails the pass. -/
def newTrim (mode : Nat) (x : ColSums) : Option (Nat × Int) :=
  let d := x.1 - x.2
  if d ≤ 0 then none
  else
    let o := (x.1 + x.2 + 8) / 16
    let g := (2 * injE mode + d) / (2 * d)
    if o < -128 ∨ 127 < o ∨ g < 12288 ∨ 20480 < g then none else some (g.toNat, o)

/-- Phase 5 on one column (R279): the trimmed fine value is within 1 of 8 × the injected level. -/
def verifyOk (tr : Nat × Int) (r level : Int) : Bool := decide ((trimFine r tr.2 tr.1 - 8 * level).natAbs ≤ 1)

/-- The new trims of the 528 columns, none when the pass fails in phase 4 or 5. -/
def passTrims (mode : Nat) (sums : List ColSums) (ver : List (List Int)) : Option (Tab (Nat × Int)) :=
  let ts := (List.range 528).map (fun j => newTrim mode (sums.getD j (0, 0)))
  let i := injLevel mode
  let levels := [i, -i, i / 3, -(i / 3)]
  if ts.all (·.isSome) && (List.range 4).all (fun k => (List.range 528).all (fun j =>
      match ts.getD j none with
      | some tr => verifyOk tr ((ver.getD k []).getD j 0) (levels.getD k 0)
      | none => false)) then
    some ((List.range 528).map (fun j => (j, (ts.getD j none).getD (16384, 0))))
  else none

/-- The taps that a pass's binary searches leave, for which the spec gives no readings: 32 edge delays of 5 bits, 66
comparator offsets of 6 bits and 396 decision weights of 5 bits (Table 12.3). -/
def tapBits (n : Option Nat) (pos w : Nat) : Nat :=
  match n with
  | some k => Config.freeValue k / 2 ^ pos % 2 ^ w
  | none => 0
def Pier.edgeTap (p : Pier) (k : Nat) : Nat := tapBits p.taps (5 * k) 5
def Pier.cmpTap (p : Pier) (k : Nat) : Int := sext 6 (tapBits p.taps (160 + 6 * k) 6)
def Pier.decTap (p : Pier) (k : Nat) : Int := sext 5 (tapBits p.taps (556 + 5 * k) 5)

/-- The trims that a pass stages: those of phase 4, and the taps of phases 2, 3a and 3b (Table 12.3, R282). -/
def stagedTrims (bn : Nat) (tr : Tab (Nat × Int)) (vref : Bool) (s : State) : StagedTrims × State :=
  ({ trims := .given tr, taps := s.draws, vref := vref, beat := serviceBeat s, temp := s.bayTemp bn, tick := s.pw.refTicks }, (drawFree s).2)

/-- CAL_PASS_DONE: the new trims of the pass are staged, or the pass fails and discards all of them (R279, R282). -/
def calPassOp (span bay phys : Nat) (sums : List ColSums) (ver : List (List Int)) (s : State) : State :=
  let bn := bayNo span bay
  let x := s.pier bn phys
  if x.calLeft != some 0 || !s.dieOn span then s
  else
    let s := (noteAcc s).modPier bn phys (fun y => { y with calLeft := none })
    let s := match passTrims (s.bayMode bn) sums ver with
      | some tr =>
        let st := stagedTrims bn tr x.calVref s
        let s := st.2.modPier bn phys (fun y => { y with staged := some st.1 })
        if s.enabledCwys.any (fun c => s.uses c bn) then s else takeTrims bn phys s
      | none =>
        let s := s.modBay bn (fun y => { y with calFails := min 255 (y.calFails + 1) })
        post 0x30 span ([0] ++ leBytes 1 bay ++ leBytes 1 phys) (eventNow (.pier span bay phys) 2 0 s)
    noteAcc (endBayPass bn x.calVref s)

/-- CAL_PASS_DONE (R279). -/
def execCalPassDone (span bay phys : Nat) (sums : List ColSums) (ver : List (List Int)) (s : State) : Host.Outcome State Fault Refusal :=
  go s (calPassOp span bay phys sums ver)

/-- A pass of bring-up ends on a Pier without a report of its readings: its trims and taps are free values.  DESIGN
CHOICE: such a pass does not fail (log 24). -/
def Pier.bringUp (d : Nat) (beat : Nat) (temp : Int) (p : Pier) : Pier :=
  if p.calLeft.isNone then p
  else { p with calLeft := none, trims := .drawn d, taps := some (d + 1), passVref := p.calVref, passTemp := temp, passBeat := some beat }

/-- The passes of bring-up complete on every Bay where they still run (Table 16.1, R283). -/
def bringUpPasses (s : State) : State :=
  let run := s.bays.filter (fun e => e.2.calRunning)
  let beat := serviceBeat s
  let d := s.draws
  let s := { s with draws := d + 2 * 17 * 1536, bays := s.bays.map (fun e =>
    (e.1, { e.2 with piers := e.2.piers.map (fun p => (p.1, p.2.bringUp (d + 2 * (17 * e.1 + p.1)) beat (s.bayTemp e.1))) })) }
  noteCurrent (foldS run (fun s e => endBayPass e.1 (e.2.piers.any (fun p => p.2.calLeft.isSome && p.2.calVref)) s) s)

/-! ### Triggers (R283) -/

/-- The temperature or the age of a Bay's last pass meets its condition of R283. -/
def State.passDue (s : State) (bn : Nat) : Bool :=
  let b := s.bay bn
  match b.calBeat with
  | none => false
  | some t => decide ((s.bayTemp bn - b.calTemp).natAbs > 1000 * s.calf 8 8) || decide (2 ^ (s.calf 32 8 - 1) ≤ serviceBeat s - t)

/-- Passes that temperature or age trigger.  DESIGN CHOICE (log 160): such a condition lasts, so while a pass of the Bay
runs it triggers the pending one only as it comes to hold. -/
def tempTriggers (s : State) : State :=
  foldS s.baysUp (fun s b =>
    let due := s.passDue b
    let y := s.bay b
    let s := if due && (!y.calDue || !y.calRunning) then triggerPass b s else s
    if due == y.calDue then s else s.modBay b (fun y => { y with calDue := due })) s

/-- Passes that the job frequency in force triggers: more than 100 MHz from that of the last pass. -/
def freqTriggers (s : State) : State :=
  let f := freq100k s.pw.curStep
  foldS (s.baysUp.filter (fun b => (s.bay b).calBeat.isSome &&
    decide (1000 < ((f : Int) - (freq100k (s.bay b).calFreq : Int)).natAbs))) (fun s b => triggerPass b s) s

end Sys2Proof.Machine
end

