-- ==== Sys2Proof/Machine/Recovery.lean ====
section
/-! DEFINITION. Recovery actions, the window configuration, the Ledger, in-service inspection, fence clears,
Merkle windows, the event ring and MSI-X (R248 to R274, R381, R384). -/

namespace Sys2Proof.Machine

/-! ### Recovery actions (R266, R267) -/

/-- The oldest demand starts, escalates or queues; with none, a queued action whose level is free starts.  A pending fence
whose unit no Carriageway uses any longer takes effect (R263, R266). -/
def recoveryOp (s : State) : State :=
  match s.ras.demands with
  | [] => flush s (pendSweep (startQueued 40 s))
  | d :: r => flush s (pendSweep (startQueued 40 (takeDemand 8 d.unit (s.modRas (fun x => { x with demands := r })))))

/-- RECOVERY_ACTION_START (R266). -/
def execRecoveryActionStart (s : State) : Host.Outcome State Fault Refusal := go s recoveryOp

/-- A word of RAS_WIN_CFG as it is stored. -/
def winCfgStored (w : Nat) : Nat :=
  ((List.range 8).map (fun k => max 2 (fld w (4 * k) 4) * 2 ^ (4 * k))).sum + clampN (fld w 48 6) 24 34 * 2 ^ 48

/-- RAS_WIN_CFG is stored: at once for units that no Carriageway uses, at the next Keystone of each Carriageway, for which
the word in force so far stays so until then (R257). -/
def storeWinCfg (w : Word) (s : State) : State :=
  let u := s.modRas (fun r => { r with cfgOf := s.enabledCwys.map (fun c => (c, (tget r.cfgOf c).getD (s.word 0x80000))) })
  noteHot (s.thm.past.map (·.1)) s (u.setWord 0x80000 (winCfgStored w.toNat))

/-- A RAS_WIN_CFG write: the units that no Carriageway uses are evaluated under it at once (R257). -/
def winCfgOp (p : Path) (w : Word) : State → State := inReady (fun s =>
  let t := storeWinCfg w s
  report p .other 0 0 (evaluate ((t.ras.evts.map (·.unit)).filter (fun u => t.winCfgOf u != s.winCfgOf u)) t))

/-- WIN_CFG_WRITE (R257). -/
def execWinCfgWrite (p : Path) (w : Word) (s : State) : Host.Outcome State Fault Refusal := go s (inTurn (.winCfgWrite p w) (winCfgOp p w))

/-! ### The Ledger (R258, R259) -/

/-- Flash offset of the Ledger region, and its size in records. -/
def ledgerFlash : Nat := 2 ^ 22
def ledgerSize : Nat := 2 ^ 17

/-- Records of a flash sector of 4 KiB (R390). -/
def ledgerSector : Nat := 128

/-- Flash offset of a record of the region, which is used as a ring. -/
def ledgerAt (i : Nat) : Nat := ledgerFlash + 32 * (i % ledgerSize)

/-- A record appended to the flash region. -/
def ledgerAppend (r : Bytes) (s : State) : State :=
  emit (.flash (ledgerAt (s.ledger.base + s.ledger.log.length)) r) (s.modLedger (fun l => { l with log := l.log ++ [r] }))

/-- A failed Ledger write (R259): its event, ALERT cause 4, ledger_ok clear. -/
def ledgerFail (s : State) : State :=
  let s := s.modLedger (fun l => { l with ok := false })
  post 0x61 6 [] (s.modChain (fun x => { x with alertLatch := x.alertLatch ||| 16 }))

def ledgerWriteOp (ok : Bool) (s : State) : State :=
  match if s.mgt.hkStopped then [] else s.ledger.queue with
  | [] => s
  | r :: rest =>
    let s := s.modLedger (fun l => { l with queue := rest })
    if ok then ledgerAppend r s else ledgerFail s

/-- LEDGER_WRITE (R258). -/
def execLedgerWrite (ok : Bool) (s : State) : Host.Outcome State Fault Refusal := go s (ledgerWriteOp ok)

/-- A checkpoint record of the service-beat counter. -/
def ledgerCheckpointOp (ok : Bool) (s : State) : State :=
  let t := (ledgerRec 5 0 6 0 255 0 0 { s with ledger := { s.ledger with queue := [] } }).ledger.queue
  match if s.mgt.hkStopped then [] else t with
  | r :: _ => if ok then ledgerAppend r s else ledgerFail s
  | [] => s

/-- LEDGER_CHECKPOINT (R258). -/
def execLedgerCheckpoint (ok : Bool) (s : State) : Host.Outcome State Fault Refusal := go s (ledgerCheckpointOp ok)

/-- Two records name the same unit. -/
def sameUnit (a b : Bytes) : Bool := slice a 1 4 == slice b 1 4

/-- The record is of an event still inside the window of its unit, under the configuration in force for the unit (R254,
R257); a clear of the unit has taken its events out (R274). -/
def State.inWindow (s : State) (r : Bytes) : Bool :=
  s.ras.evts.any (fun e => e.unit.kind == getLe r 1 1 && e.unit.place == (getLe r 2 1, getLe r 3 1, getLe r 4 1) && e.stamp == getLe r 8 8 &&
    decide (serviceBeat s < e.stamp + 2 ^ fld (s.winCfgOf e.unit) 48 6))

/-- Records that compaction keeps: fences not cleared since, events inside their window, the newest checkpoint (R259). -/
def compacted (s : State) (log : List Bytes) : List Bytes :=
  let idx := (List.range log.length).zip log
  let lastCp := (idx.filter (fun e => getLe e.2 0 1 == 5)).getLast?.map (·.1)
  let cleared := fun (e : Nat × Bytes) => idx.any (fun x => decide (e.1 < x.1) && getLe x.2 0 1 == 6 && sameUnit x.2 e.2)
  (idx.filter (fun e => match getLe e.2 0 1 with
    | 2 => !cleared e
    | 1 => s.inWindow e.2
    | 5 => lastCp == some e.1
    | _ => false)).map (·.2)

/-- First record of the free sectors behind the log, and how many records they hold. -/
def Ledger.free (l : Ledger) : Nat × Nat :=
  let first := ceilDiv (l.base + l.log.length) ledgerSector * ledgerSector
  (first, l.base / ledgerSector * ledgerSector + ledgerSize - first)

/-- The sectors of records a to b − 1 of the region are erased, in two runs where they go on at its start (R390). -/
def eraseRecords (a b : Nat) (s : State) : State :=
  let e := min b ledgerSize
  let s := emit (.flashErase (ledgerAt a) (32 * (e - a))) s
  if e < b then emit (.flashErase (ledgerAt 0) (32 * (b - e))) s else s

/-- Past three quarters, the copy goes into free sectors, and then the older sectors are erased (R259).  DEDUCED (log 23):
a copy that the free sectors do not hold is a Ledger write that fails. -/
def ledgerCompactOp (ok : Bool) (s : State) : State :=
  if s.mgt.hkStopped || decide (s.ledger.log.length ≤ ledgerSize / 4 * 3) then s
  else
    let keep := compacted s s.ledger.log
    let room := s.ledger.free
    if !ok || decide (room.2 < keep.length) then ledgerFail s
    else
      let old := s.ledger.base / ledgerSector * ledgerSector
      let s := foldS ((List.range keep.length).zip keep) (fun s e => emit (.flash (ledgerAt (room.1 + e.1)) e.2) s) s
      eraseRecords old room.1 (s.modLedger (fun l => { l with log := keep, base := room.1 % ledgerSize }))

/-- LEDGER_COMPACTION (R259). -/
def execLedgerCompaction (ok : Bool) (s : State) : Host.Outcome State Fault Refusal := go s (ledgerCompactOp ok)

/-! ### In-service inspection (R270 to R273) -/

/-- Inspection is enabled and runs. -/
def State.inspects (s : State) : Bool := s.inspf 16 1 == 1 && !s.halted

/-- Every data code of an inspection beat is a faithful rounding of its exact target (R29, R271). -/
def inspPass (m : Mem) (mode : Nat) (seg codes : List Int) : Bool :=
  let xs := (List.range 512).map (fun i => seg.getD i 0)
  let b : Beat := { start := 0, cwy := 0, layer := 0, slot := 0, u := 0, aslot := 0, drive := driveOf xs, ext := extracted xs, clips := 0 }
  (List.range 512).all (fun j => faithful mode (yA m b j) (rangeShift m j) (codes.getD j 0))

/-- A Bay has missed the temperature condition for a whole inspection period (R273). -/
def State.coldBay (s : State) (bn : Nat) : Bool :=
  !s.hotNow bn && decide (max s.ras.inspFrom (tgetD s.thm.hotAt bn 0) + 2 ^ s.inspf 20 6 ≤ serviceBeat s)

/-- A ballast beat falls due in a Bay before a beat from cycle t on ends (R129). -/
def State.ballastDue (s : State) (bn t : Nat) : Bool :=
  s.cwys.any (fun e => e.2.warm.contains bn && !(e.2.run.inBody && e.2.run.wait.isNone)) &&
    (s.bay bn).lastBeat.all (fun b => decide (b + 8192 < t + beatLen (s.bayMode bn)))

/-- An inspection beat may start in a Pier in cycle t: no op, refresh row, calibration beat or ballast beat needs the Pier,
the main array is free for it, a ballast beat that falls due meanwhile finds another Pier, and the ramp share allows it (R78,
R128, R270). -/
def State.inspSlot (s : State) (bn p t : Nat) : Bool :=
  s.ownSlot bn p t && !s.calWaits bn p && s.arrayFree bn t 16 && s.mayHeat bn &&
    (!s.ballastDue bn t || (s.bay bn).ready.any (fun q => q != p && s.ownSlot bn q t))

/-- An inspection beat takes its Pier and the main array. -/
def inspTakes (bn p t : Nat) (s : State) : State := useArray bn t 16 (ownBeat bn p t (heat bn s))

/-- INSPECTION_BEAT on a READY Pier that is free from cycle t, in a Bay at its test temperature or cold for a whole
period (R270, R271, R273). -/
def inspBeatOp (span bay phys t : Nat) (seg codes : List Int) (s : State) : State :=
  let bn := bayNo span bay
  let cold := s.coldBay bn
  if !s.inspects || s.pstate bn phys != 2 || !s.inspSlot bn phys t || !(s.hotNow bn || cold) then s
  else
    let ok := inspPass (s.pier bn phys).img (s.bayMode bn) seg codes
    let now := serviceBeat s
    let s := inspTakes bn phys t (s.modPier bn phys (fun x => { x with lastInsp := now, starved := false }))
    if ok then s else eventNow (.pier span bay phys) 2 (if cold then 2 ^ 31 else 0) s

def execInspectionBeat (span bay phys t : Nat) (seg codes : List Int) (s : State) : Host.Outcome State Fault Refusal :=
  go s (inspBeatOp span bay phys t seg codes)

/-- The test image of a spare's inspection. -/
def testImage : Mem := memPut [] 0 ((List.range imageLen).map Config.testByte)

/-- The expected bits of a pattern; `fv` where R96 states no result. -/
def patternBits (fv : Nat) : Pattern → Nat
  | .fma a b c => fma fv (decF32 a) (decF32 b) (decF32 c)
  | .fmaBf16 a b c => fma fv (decBf16 a) (decBf16 b) (decF32 c)
  | .ex2 x => fpEx2 fv (decF32 x)
  | .rcp x => fpRcp fv (decF32 x)
  | .rsq x => fpRsq fv (decF32 x)

/-- Every beat of a run against the test image passes (R272). -/
def pierRunPass (r : InspRun) (mode : Nat) : Bool := r.wrote && !r.beats.isEmpty && r.beats.all (fun b => inspPass testImage mode b.seg b.codes)

/-- The operation of a pattern. -/
def patternKind : Pattern → Nat
  | .fma _ _ _ => 0 | .fmaBf16 _ _ _ => 1 | .ex2 _ => 2 | .rcp _ => 3 | .rsq _ => 4

/-- The patterns of a run cover both FMAs, ex2, rcp and rsq (R239, R272). -/
def runCovers (r : InspRun) : Bool := (List.range 5).all (fun k => r.patterns.any (fun p => patternKind p.1 == k))

/-- Every pattern of a run gave its expected bits (R272). -/
def girderRunPass (r : InspRun) (fv : Nat) : Bool := runCovers r && r.patterns.all (fun p => p.2 == patternBits fv p.1)

/-- The beats of a run follow each other in one Pier, each in cycles that are free for it (R55, R270). -/
def State.runFits (s : State) (bn p : Nat) : List InspBeat → Bool
  | [] => true
  | b :: r => decide ((r.head?.map (·.start)).all (fun u => b.start + beatLen (s.bayMode bn) ≤ u)) && s.inspSlot bn p b.start && s.runFits bn p r

/-- A Girder is free for patterns in cycles t to t + n − 1: no routine runs in them, and no op ahead starts one (R270). -/
def State.girderFree (s : State) (span g t n : Nat) : Bool :=
  (match (s.girder (girNo span g)).run with | some r => decide (r.start + r.len ≤ t) | none => true) &&
    ((s.cwys.flatMap (fun e => (s.opsAhead e.1 span t).map (fun x => (e.1, x)))).filter (fun e => opClass e.2.1 == 6 && fld e.2.1 86 6 == g)).all
      (fun e => decide (e.2.2 + 2 + s.routineLen e.1 span g (fld e.2.1 76 10) ≤ t ∨ t + n ≤ e.2.2 + 2))

/-- SPARE_INSPECTION on an UNPROGRAMMED Pier that is its Bay's spare, or whose Bay no Carriageway uses: the test image is
bulk-written, while no other bulk write of the Bay and no calibration of the Pier runs, beats run in free cycles, and the
Pier is UNPROGRAMMED again (R218, R270, R272); a bulk write that does not read back is an event
of its own (R254). -/
def spareInspOp (span bay phys : Nat) (run : InspRun) (s : State) : State :=
  let bn := bayNo span bay
  let idle := !(List.range 64).any (fun c => s.unitUsed c (.bay span bay))
  if !s.inspects || !s.dieOn span || !(s.sparePhys bn == phys || idle) || s.pstate bn phys != 0 || (run.wrote && run.beats.isEmpty) ||
      !(s.bay bn).bulk.isEmpty || s.calWaits bn phys || !s.runFits bn phys run.beats then s
  else
    let now := serviceBeat s
    let s := s.modPier bn phys (fun x => { x with lastInsp := now, starved := false, img := testImage })
    let s := foldS run.beats (fun s b => inspTakes bn phys b.start s) s
    if pierRunPass run (s.bayMode bn) then s else eventNow (.pier span bay phys) (if run.wrote then 2 else 3) 0 s

def execSpareInspection (span bay phys : Nat) (run : InspRun) (s : State) : Host.Outcome State Fault Refusal := go s (spareInspOp span bay phys run)

/-- GIRDER_INSPECTION in cycles that the Girder's routines leave free, with patterns of every kind (R270, R272). -/
def girderInspOp (span girder : Nat) (run : InspRun) (s : State) : State :=
  let n := girNo span girder
  if !s.inspects || !s.dieOn span || s.outOfService (.girder span girder) || !s.girderFree span girder run.start run.len || !runCovers run then s
  else
    let now := serviceBeat s
    let x := drawFree s
    let s := x.2.modGirder n (fun y => { y with lastInsp := now, starved := false })
    if girderRunPass run (x.1 % 2 ^ 32) then s else eventNow (.girder span girder) 2 0 s

def execGirderInspection (span girder : Nat) (run : InspRun) (s : State) : Host.Outcome State Fault Refusal := go s (girderInspOp span girder run)

/-- A unit misses its period, counted since its last inspection or since periods are tracked: one event (R273). -/
def starvedOp (unit span bay index : Nat) (s : State) : State :=
  let bn := bayNo span bay
  let late := fun (last : Nat) => decide (2 ^ s.inspf 20 6 ≤ serviceBeat s - max s.ras.inspFrom last)
  let ev := fun (s : State) => post 0x24 span (leBytes 1 unit ++ leBytes 1 bay ++ leBytes 1 index) s
  if !s.inspects then s
  else if unit = 0 then
    let x := s.pier bn index
    if s.outOfService (.pier span bay index) || x.starved || !late x.lastInsp then s
    else ev (s.modPier bn index (fun y => { y with starved := true }))
  else
    let x := s.girder (girNo span index)
    if s.outOfService (.girder span index) || x.starved || !late x.lastInsp then s
    else ev (s.modGirder (girNo span index) (fun y => { y with starved := true }))

/-- INSPECTION_STARVED (R273). -/
def execInspectionStarved (unit span bay index : Nat) (s : State) : Host.Outcome State Fault Refusal := go s (starvedOp unit span bay index)

/-! ### Fence clears (R274) -/

/-- The fenced unit that a RAS_FENCE_CLR word names, if any. -/
def State.clrUnit (s : State) (w : Nat) : Option WinUnit :=
  let die := fld w 26 3; let bay := fld w 18 8; let i := fld w 12 6
  if 5 < die then none
  else match fld w 29 2 with
    | 0 => if i ≤ 16 ∧ (s.pier (bayNo die bay) i).state = 3 then some (.pier die bay i) else none
    | 1 => if (s.bay (bayNo die bay)).fenced then some (.bay die bay) else none
    | 2 => if (s.girder (girNo die i)).fenced then some (.girder die i) else none
    | _ => none

/-- The grant of an enabled Carriageway includes the unit. -/
def State.unitGranted (s : State) (u : WinUnit) : Bool :=
  s.enabledCwys.any (fun c => match u with
    | .pier sp b _ => s.grantsBay c (bayNo sp b)
    | .bay sp b => s.grantsBay c (bayNo sp b)
    | .girder sp g => s.grantsGroup c sp g
    | _ => false)

/-- The fence-clear event. -/
def clrEvent (res unit die bay idx : Nat) (s : State) : State :=
  post 0x25 die (leBytes 1 res ++ leBytes 1 unit ++ leBytes 1 bay ++ leBytes 1 idx) s

def fenceClearOp (p : Path) (w : Word) : State → State := inReady (fun s =>
  let n := w.toNat
  let ev := fun (r : Nat) (s : State) => clrEvent r (fld n 29 2) (fld n 26 3) (fld n 18 8) (fld n 12 6) s
  let s :=
    if !bit n 31 then s
    else match s.clrUnit n with
      | none => ev 3 s
      | some u => if s.unitGranted u then ev 1 s else s.modRas (fun r => { r with clr := r.clr ++ [u] })
  report p .other 0 0 s)

/-- FENCE_CLEAR (R274). -/
def execFenceClear (p : Path) (w : Word) (s : State) : Host.Outcome State Fault Refusal := go s (inTurn (.fenceClear p w) (fenceClearOp p w))

/-- A unit returns to service: its window count is cleared, a type 6 record written, its Bay, or the Bays of its Girder's
group, calibrated (R274, R283), and it has just been inspected (R273). -/
def unfence (u : WinUnit) (s : State) : State :=
  let s := s.modRas (fun r => { r with evts := r.evts.filter (fun e => e.unit != u) })
  let s := ledgerUnit 6 0 0 u s
  let now := serviceBeat s
  match u with
  | .pier sp b p => triggerPass (bayNo sp b) (s.modPier (bayNo sp b) p (fun x => { x with state := 0, lastInsp := now, starved := false }))
  | .bay sp b => triggerPass (bayNo sp b) (s.modBay (bayNo sp b) (fun x => { x with
      fenced := false, piers := x.piers.map (fun e : Nat × Pier => (e.1, { e.2 with lastInsp := now, starved := false })) }))
  | .girder sp g => foldS ((List.range 4).map (fun k => bayNo sp (4 * g + k))) (fun s b => triggerPass b s)
      (s.modGirder (girNo sp g) (fun x => { x with fenced := false, lastInsp := now, starved := false }))
  | _ => s

/-- A run of the inspection of a fenced unit passes: a Pier's and a Bay's as a spare's, a Girder's by its patterns. -/
def State.runPasses (s : State) (u : WinUnit) (r : InspRun) : Bool :=
  match u with
  | .girder _ _ => girderRunPass r ((drawFree s).1 % 2 ^ 32)
  | u => pierRunPass r (s.bayMode (bayNo u.place.1 u.place.2.1))

/-- The eight inspections of the oldest request are over; in halt-safe none runs (R268, R274). -/
def fenceClearDoneOp (runs : List InspRun) (s : State) : State :=
  match if s.halted then [] else s.ras.clr with
  | [] => s
  | u :: r =>
    let pass := runs.map (s.runPasses u)
    let s := (drawFree s).2.modRas (fun x => { x with clr := r })
    let bay := match u with | .girder _ _ => 0 | _ => u.place.2.1
    let idx := match u with | .bay _ _ => 0 | _ => u.place.2.2
    if (List.range 8).all (fun k => pass.getD k false) then clrEvent 0 u.kind u.place.1 bay idx (unfence u s)
    else clrEvent 2 u.kind u.place.1 bay idx s

/-- FENCE_CLEAR_DONE (R274). -/
def execFenceClearDone (runs : List InspRun) (s : State) : Host.Outcome State Fault Refusal := go s (fenceClearDoneOp runs)

/-! ### Merkle windows (R248 to R251) -/

/-- The open window closes with the leaves issued in it, at its last tick or later; whole windows beyond 4 GiB are
dropped, oldest first. -/
def windowCloseOp (s : State) : State :=
  let n := s.certs.window
  let stop := windowTicks * (n + 1)
  let s := if s.pw.refTicks < stop then elapse (stop - s.pw.refTicks) s else s
  s.modCerts (fun c => { c with window := n + 1, leaves := c.leaves.filter (fun l => decide (n < l.win))
                                closed := reclaim (c.closed ++ [{ num := n, leaves := c.leaves.filter (fun l => decide (l.win ≤ n)) }]) })

/-- WINDOW_CLOSE (R248). -/
def execWindowClose (s : State) : Host.Outcome State Fault Refusal := go s windowCloseOp

/-- The oldest closed window without a record gets it, and waiting fetches are served. -/
def giveRecord (wstatus : Nat) (s : State) : State :=
  match s.certs.closed.find? (fun w => w.rec_.isNone) with
  | none => s
  | some w =>
    let r := windowRecord s w wstatus (if wstatus = 0 then recordSign s w else [])
    let s := s.modCerts (fun c => { c with
      closed := c.closed.map (fun x => if x.num == w.num then { x with rec_ := some r } else x), prev := shake 32 r
      signerOk := wstatus == 0, lastSigned := if wstatus = 0 then w.num else c.lastSigned
      unsigned := if wstatus = 0 then c.unsigned else satAdd 16 c.unsigned 1 })
    fetchWake w r (protectStore s)

/-- WINDOW_SIGNED (R249): the device signs with its identity key. -/
def windowSignedOp (s : State) : State := giveRecord 0 s
def execWindowSigned (s : State) : Host.Outcome State Fault Refusal := go s windowSignedOp

/-- SIGNING_FAILURE (R250): the record is written unsigned and the device enters halt-safe. -/
def signFailOp (s : State) : State :=
  match s.certs.closed.find? (fun w => w.rec_.isNone) with
  | none => s
  | some w => enterHalt (post 0x60 6 (leBytes 8 w.num) (giveRecord 1 s))

def execSigningFailure (s : State) : Host.Outcome State Fault Refusal := go s signFailOp

/-! ### Event ring and MSI-X (R381, R384) -/

/-- EVENT_HEAD_POLL (R381): the head is read and answers; records drain. -/
def eventPollOp (head : Nat) (s : State) : State :=
  if !s.host.evt.enable || s.host.evt.waiting.isEmpty then s
  else evtDrain 200 ((evtAsk s).modEvt (fun e => { e with head := head % 2 ^ 32 }))

def execEventHeadPoll (head : Nat) (s : State) : Host.Outcome State Fault Refusal := go s (eventPollOp head)

/-- EVENT_RING_FAILURE (R381): the ring stops; the failed record and every later one wait on-die, before those that
waited, the events-lost record keeping its place behind them.  64 wait: of more the newest are dropped (R382). -/
def eventFailOp (n : Nat) (s : State) : State := s.modEvt (fun e =>
  let back := (e.wrote.take n).reverse
  let all := back ++ e.waiting
  let excess := all.length - 64
  { e with enable := false, waiting := all.take 64, wrote := e.wrote.drop n, ovf := e.ovf || excess != 0
           lost := (List.range excess).foldl (fun m _ => satAdd 16 m 1) e.lost, lostSince := e.lostSince + excess
           before := e.before.map (fun k => min 64 (k + back.length)) })

def execEventRingFailure (n : Nat) (s : State) : Host.Outcome State Fault Refusal := go s (eventFailOp n)

/-- EVENT_RING_ENABLE (R381): a log2 outside 6 to 16 leaves enable at 0. -/
def eventEnableOp (s : State) : State :=
  if s.host.evt.enable || decide (s.evtf 112 5 < 6 ∨ 16 < s.evtf 112 5) then s
  else evtAsk (evtDrain 200 (s.modEvt (fun e => { e with enable := true, head := 0, tail := 0 })))

def execEventRingEnable (s : State) : Host.Outcome State Fault Refusal := go s (inTurn .eventRingEnable eventEnableOp)

/-- MSIX_UNMASK (R384). -/
def msixUnmaskOp (v : Nat) (s : State) : State :=
  let due := s.host.msixPending.contains v && !s.pw.shutEnded
  let s := s.modHost (fun h => { h with unmasked := if h.unmasked.contains v then h.unmasked else v :: h.unmasked
                                        msixPending := if due then h.msixPending.filter (· != v) else h.msixPending })
  s.when due (emit (.msix v))

def execMsixUnmask (v : Nat) (s : State) : Host.Outcome State Fault Refusal := go s (msixUnmaskOp v)

end Sys2Proof.Machine
end

