-- ==== Sys2Proof/Machine/Windows.lean ====
section
/-! DEFINITION. The host's windows into HBM, address translation, the CXL link and the DOE mailbox's
discovery and CDAT (R353 to R363). -/

namespace Sys2Proof.Machine

/-! ### HOST_HDM_MAP and HOST_LAND_MAP (R359, R360, R414) -/

/-- Base and length fields of a mapping word, in GiB. -/
def mapRange (w : Nat) : Nat × Nat := (fld w 0 9, fld w 16 7)

/-- Certificate store in GiB. -/
def storeGib : Nat × Nat := (380, 4)

/-- Base and length as they are stored; the lock of R414 keeps them while the enable is set. -/
def mapStore (off : Nat) (en : Bool) (w : Nat) (s : State) : State :=
  if en then s else s.setWord off (fld w 0 9 + fld w 16 7 * 2 ^ 16)

def hdmMapOp (w : Word) (s : State) : State :=
  let n := w.toNat
  let s := mapStore 0x10010 (s.lockedNow 0x10010) n s
  let r := mapRange (s.word 0x10010)
  if !bit n 63 then s.modHost (fun h => { h with hdmEn := false, filter := [], snooped := [] })
  else if s.host.hdmEn then s
  else
    let land := mapRange (s.word 0x10020)
    let code := firstFail [(r.2 == 0 || decide (64 < r.2), 0x61), (overlap r storeGib || (s.host.landEn && overlap r land), 0x12)]
    s.modHost (fun h => if code = 0 then { h with hdmEn := true } else { h with hdmReason := code })

/-- HDM_MAP_WRITE (R360). -/
def execHdmMapWrite (w : Word) (s : State) : Host.Outcome State Fault Refusal := go s (inTurn (.hdmMapWrite w) (hdmMapOp w))

/-- A LOAD_WEIGHTS or LOAD_SPANDREL is pending. -/
def State.loadsPending (s : State) : Bool :=
  s.cwys.any (fun e => e.2.w.load.isSome || !e.2.w.loadWait.isEmpty) || s.spandrels.any (fun e => e.2.state == 1 || (e.2.state == 2 && e.2.order.isSome))

/-- A range in GiB overlaps the carve-out of a Carriageway that is not DISABLED. -/
def State.carveHit (s : State) (r : Nat × Nat) : Bool :=
  s.enabledCwys.any (fun c => overlap (r.1 * 512, r.2 * 512) (s.carveGran c))

def landMapOp (w : Word) (s : State) : State :=
  let n := w.toNat
  let s := mapStore 0x10020 (s.lockedNow 0x10020) n s
  let r := mapRange (s.word 0x10020)
  if !bit n 63 then
    if s.host.landEn && s.loadsPending then s.modHost (fun h => { h with landReason := 0x76 }) else s.modHost (fun h => { h with landEn := false })
  else if s.host.landEn then s
  else
    let hdm := mapRange (s.word 0x10010)
    let code := firstFail [(r.2 == 0 || decide (64 < r.2), 0x61),
      (overlap r storeGib || (s.host.hdmEn && overlap r hdm) || s.carveHit r, 0x12)]
    s.modHost (fun h => if code = 0 then { h with landEn := true } else { h with landReason := code })

/-- LAND_MAP_WRITE (R359). -/
def execLandMapWrite (w : Word) (s : State) : Host.Outcome State Fault Refusal := go s (inTurn (.landMapWrite w) (landMapOp w))

/-! ### HDM_ACCESS (R137, R360, R361) -/

/-- Length of an access. -/
def memReqLen : MemReq → Nat
  | .read n _ => n
  | .write d _ => d.length

/-- CXL.mem is granted, the window mapped, and the access inside it (R356, R360). -/
def State.hdmMapped (s : State) (off n : Nat) : Bool :=
  s.host.memEn && s.host.biEn && s.host.hdmEn && decide (off + n ≤ s.hdmLen)

/-- A line enters the inclusive snoop filter; a full filter evicts one first (R360).  A write-back of an evicted line is
owed as that of a snooped one; the host has none left to make of the line that it takes now. -/
def holdLine (l : Nat) (s : State) : State :=
  if s.host.filter.contains l then s
  else
    let s :=
      if s.host.filter.length < 131072 then s
      else
        let v := s.host.filter.getD (Config.evictIndex s.host.filter % s.host.filter.length) 0
        hbmSnoop (s.hdmBase + 64 * v) 64 s
    s.modHost (fun h => { h with filter := l :: h.filter, snooped := tdel h.snooped l })

/-- The lines of an access. -/
def linesOf (off n : Nat) : List Nat := if n = 0 then [] else (List.range ((off + n - 1) / 64 + 1 - off / 64)).map (· + off / 64)

/-- The one window-access event of an access to protected granules, at most one per 1 ms per granule (R361).
DESIGN CHOICE (log 157): an access to several granules counts for the lowest of them that has had none for 1 ms. -/
def windowEvent (off : Nat) (wr : Bool) (gs : List Nat) (s : State) : State :=
  let now := s.pw.refTicks
  match gs.find? (fun g => decide ((tget s.host.winEvt g).all (fun t => t + 100000 ≤ now))) with
  | none => s
  | some g => post 4 0xFF (leBytes 8 off ++ leBytes 1 (b2n wr)) (s.modHost (fun h => { h with winEvt := tset h.winEvt g now }))

/-- The itinerary-write event of every Carriageway whose container a write hits (R137). -/
def containerEvents (off : Nat) (cs : List Nat) (s : State) : State :=
  foldS cs (fun s c => post 0x11 0xFF (leBytes 1 c ++ zeros 7 ++ leBytes 8 off) s) s

/-- The Carriageway whose carve-out holds an address. -/
def State.carveOf (s : State) (a : Nat) : Option Nat := s.enabledCwys.find? (fun c => overlap (a, 1) (s.carve c))

/-- What a host read of HBM answers, and what the read does beside (R234). -/
def hostRead_ (a n : Nat) (f : ReadFail) (s : State) : State :=
  let bs := memBytes (s.unitRead a n f) 0 n
  emit (.readData bs) (unitReads (s.carveOf a) a n f s)

/-- An access through the window to an address that exists, in the memory as it stands now; a write that hits both a
protected granule and a container posts both events (R137, R361).  A write of lines that the device has snooped is the
host's write-back, and leaves it no copy (R360). -/
def hdmServe (off : Nat) (q : MemReq) (s : State) : State :=
  let n := memReqLen q
  let zero := fun (s : State) => match q with
    | .read n _ => emit (.readData (zeros n)) s
    | .write _ _ => s
  if !s.hdmMapped off n then zero s
  else
    let a := s.hdmBase + off
    let ls := linesOf off n
    let s := landNow s
    let held := fun (s : State) => foldS ls (fun s l => holdLine l s) s
    let gs := s.protHit a n
    match q with
    | .read n f =>
      let s := windowEvent off false gs (held s)
      if gs.isEmpty then hostRead_ a n f s else emit (.readData (zeros n)) s
    | .write d back =>
      if back && s.writesBack ls then rejudge ls (writeBack off d s)
      else
        let s := held s
        let cs := s.containerHit a n
        let s := containerEvents off cs (windowEvent off true gs s)
        if gs.isEmpty && cs.isEmpty then { s with hbm := memPut s.hbm a d } else s

/-- HDM_ACCESS (R360): a window mapped beyond HBM reaches an address that does not exist. -/
def execHdmAccess (off : Nat) (q : MemReq) (s : State) : Host.Outcome State Fault Refusal :=
  if !s.host.perst && s.hdmMapped off (memReqLen q) && !hbmIn (s.hdmBase + off) (memReqLen q) then .fault (.hbmOutOfRange (s.hdmBase + off))
  else goMem s (hdmServe off q)

/-! ### BAR2_ACCESS (R358) -/

/-- The access reaches the landing region: mapped, at most 4 KiB, inside one 4 KiB page. -/
def State.bar2Mapped (s : State) (off n : Nat) : Bool :=
  s.host.landEn && decide (off + n ≤ fld (s.word 0x10020) 16 7 * 2 ^ 30) && decide (off % 4096 + n ≤ 4096)

/-- The landing region is plain memory to the host, but a container is read-only to every agent (R137): DEDUCED (log
157), a write to it here is dropped with no event, which R137 gives the CXL.mem window. -/
def bar2Serve (off : Nat) (q : MemReq) (s : State) : State :=
  let s := landNow s
  let a := s.landBase + off
  match q with
  | .read n f => if s.bar2Mapped off n then hostRead_ a n f s else emit (.readData (zeros n)) s
  | .write d _ => if s.bar2Mapped off d.length && (s.containerHit a d.length).isEmpty then { s with hbm := memPut s.hbm a d } else s

/-- BAR2_ACCESS (R358). -/
def execBar2Access (off : Nat) (q : MemReq) (s : State) : Host.Outcome State Fault Refusal :=
  if !s.host.perst && s.bar2Mapped off (memReqLen q) && !hbmIn (s.landBase + off) (memReqLen q) then .fault (.hbmOutOfRange (s.landBase + off))
  else goMem s (bar2Serve off q)

/-! ### Translation, link and power events (R353, R355, R363) -/

def atsInvalOp (pasid : Option Nat) (page : Nat) (s : State) : State := s.modHost (fun h => { h with atc := h.atc.filter (· != (pasid, page)) })

/-- ATS_INVALIDATION (R363). -/
def execAtsInvalidation (pasid : Option Nat) (page : Nat) (s : State) : Host.Outcome State Fault Refusal := go s (atsInvalOp pasid page)

/-- CXL_LINK_LOSS (R355). -/
def execCxlLinkLoss (s : State) : Host.Outcome State Fault Refusal :=
  go s (fun s => (enterHalt s).modHost (fun h => { h with width := 0 }))

/-- A hot reset: halt-safe, and the configuration bits that the device uses at their PCIe reset values (R420). -/
def hotResetOp (s : State) : State :=
  (enterHalt s).modHost (fun h => { h with cacheEn := false, memEn := false, biEn := false, pasidEn := false, atsEn := false, d3 := false, atc := [], bars := [], comp := [] })

/-- HOT_RESET (R355). -/
def execHotReset (s : State) : Host.Outcome State Fault Refusal := go s hotResetOp

def d3hotOp (s : State) : State := (enterHalt s).modHost (fun h => { h with d3 := true })

/-- D3HOT (R355). -/
def execD3hot (s : State) : Host.Outcome State Fault Refusal := go s d3hotOp

/-- CXL_LINK_TRAINED (R353): any other rate, width or flit mode does not leave training.  In x8
operation lanes 8 to 15 stay untrained, their transmitters off and their receivers unterminated (R426). -/
def linkTrainedOp (width rate : Nat) (flit256 : Bool) (s : State) : State :=
  if flit256 && (width == 16 || width == 8) && (rate == 64 || rate == 32) then s.modHost (fun h => { h with width := width, rate := rate, lanes := 2 ^ width - 1 }) else s

def execCxlLinkTrained (width rate : Nat) (flit256 : Bool) (s : State) : Host.Outcome State Fault Refusal := go s (linkTrainedOp width rate flit256)

/-! ### DOE Discovery and CDAT (R357) -/

/-- Vendor, data object type and next index of an entry of DOE Discovery. -/
def discoveryEntry (index : Nat) : Bytes :=
  match index with
  | 0 => leBytes 2 0x0001 ++ leBytes 1 0 ++ leBytes 1 1
  | 1 => leBytes 2 0x1E98 ++ leBytes 1 2 ++ leBytes 1 2
  | 2 => leBytes 2 0x0001 ++ leBytes 1 1 ++ leBytes 1 0
  | _ => leBytes 2 0xFFFF ++ zeros 2

/-- DOE_DISCOVERY (R357). -/
def execDoeDiscovery (index : Nat) (s : State) : Host.Outcome State Fault Refusal :=
  go s (fun s => s.when s.mgt.doeOn (emit (.doe (discoveryEntry index))))

/-- The DSMAS of the HDM range: 64 GiB. -/
def dsmas : Bytes := leBytes 1 0 ++ zeros 1 ++ leBytes 2 24 ++ leBytes 1 0 ++ zeros 3 ++ leBytes 8 0 ++ leBytes 8 (64 * 2 ^ 30)

/-- A DSLBIS: data type 1 read latency, 2 write latency, 4 read bandwidth, 5 write bandwidth. -/
def dslbis (typ unit val : Nat) : Bytes :=
  leBytes 1 1 ++ zeros 1 ++ leBytes 2 24 ++ leBytes 1 0 ++ leBytes 1 0 ++ leBytes 1 typ ++ zeros 1 ++ leBytes 8 unit ++ leBytes 2 val ++ zeros 6

/-- Structures of the CDAT after its header: latencies in ns, bandwidths in GB/s, halved at x8. -/
def State.cdatBody (s : State) : List Bytes :=
  let bw := if s.host.width = 8 then 25 else 50
  [dsmas, dslbis 1 1000 900, dslbis 2 1000 900, dslbis 4 1000 bw, dslbis 5 1000 bw]

/-- The header of the CDAT, its bytes and the table's summing to 0 modulo 256. -/
def State.cdatHead (s : State) : Bytes :=
  let body := s.cdatBody.flatten
  let len := 16 + body.length
  let sum := ((leBytes 4 len ++ leBytes 1 1 ++ body).map (·.toNat)).sum
  leBytes 4 len ++ leBytes 1 1 ++ leBytes 1 ((256 - sum % 256) % 256) ++ zeros 10

/-- The response to a CXL Table Access: next handle and the entry, none beyond the last. -/
def State.cdatEntry (s : State) (entry : Nat) : Bytes :=
  let es := s.cdatHead :: s.cdatBody
  match es[entry]? with
  | some e => zeros 2 ++ leBytes 2 (if entry + 1 < es.length then entry + 1 else 0xFFFF) ++ e
  | none => zeros 2 ++ leBytes 2 0xFFFF

/-- CDAT_TABLE_ACCESS (R357). -/
def execCdatTableAccess (entry : Nat) (s : State) : Host.Outcome State Fault Refusal :=
  go s (fun s => s.when s.mgt.doeOn (emit (.doe (s.cdatEntry entry))))

end Sys2Proof.Machine
end

