-- ==== Sys2Proof/Machine/Pelind.lean ====
section
/-! DEFINITION. Pelind: the link registers, training, lanes in service, and frames in slots, at arrival, in
transit and on request (section 14). -/

namespace Sys2Proof.Machine

/-! ### Matching and training (R329 to R332, Tables 14.4, 14.5) -/

/-- Die of a port. -/
def portDie (p : Nat) : Die := if p < 3 then 6 else 7

/-- The neighbour of the torus step in direction d carries the opposite map (R331). -/
def State.matchesDir (s : State) (p d : Nat) : Bool :=
  (s.port p).nbrCoord == torusStep s.torusSize s.coord d && (s.port p).nbrMap == (d + 3) % 6

/-- No other port is mapped to the same logical direction. -/
def State.mapUnique (s : State) (p : Nat) : Bool := (List.range 6).all (fun q => q == p || s.portMap q != s.portMap p)

/-- The proposal of a port that is not matched: a direction of its Abutment that would match, else 7. -/
def State.proposalOf (s : State) (p : Nat) : Nat := ((List.range 3).map (· + p / 3 * 3)).find? (s.matchesDir p) |>.getD 7

/-- The match of a port under its map now. -/
def State.isMatched (s : State) (p : Nat) : Bool := s.matchesDir p (s.portMap p) && s.mapUnique p

/-- The port's axis has torus size 1 (Table 14.5). -/
def State.axisUnused (s : State) (p : Nat) : Bool := coordAt s.torusSize (p % 3) == 1

/-- A port that trained takes the state that its latency and its match give. -/
def settlePort (p : Nat) (s : State) : State :=
  let m := s.isMatched p
  let st := if 180 < (s.port p).lat then 4 else if m then 2 else 3
  let s := s.modPort p (fun x => { x with proposal := if m then 7 else s.proposalOf p })
  let old := (s.port p).state
  if old == st then s
  else if old == 2 then leavePort p st s
  else (s.modPort p (fun x => { x with state := st })).modRas (fun r => if st = 2 then { r with dirsDown := r.dirsDown.filter (· != p) } else r)

/-- Ports in service whose match changed move (R331, R332). -/
def rematch (s : State) : State :=
  foldS ((List.range 6).filter (fun p => (s.port p).state == 2 || (s.port p).state == 3)) (fun s p => settlePort p s) s

/-- Ports train at the later of READY and the first accepted LNK_TORUS write (R389). -/
def State.mayTrain (s : State) : Bool := s.inService && bit (s.word 0xD0000) 30

/-- Training starts (Table 14.4): all transmitters send the pattern. -/
def startTraining (p : Nat) (s : State) : State :=
  if s.portOff p || !s.mayTrain then s
  else
    let st := if s.axisUnused p then 6 else 1
    let s := leavePort p st s
    s.modPort p (fun x => { x with laneUp := 0, spareUsed := false, spareFor := 15, phase := 0, moving := none, ctl := [], proposal := 7, swapped := false })

/-- A phase that does not complete: DOWN (Table 14.4). -/
def trainFail (p : Nat) (s : State) : State := s.modPort p (fun x => { x with state := 5, phase := 0, laneUp := 0 })

/-- A port that trains and has reached a phase. -/
def State.inPhase (s : State) (p n : Nat) : Bool := (s.port p).state == 1 && (s.port p).phase == n

def signalDetectOp (p : Nat) (r : DetectResult) (s : State) : State :=
  if !s.inPhase p 0 then s
  else match r with
  | .light => s.modPort p (fun x => { x with phase := 1 })
  | .crossed => s.modPort p (fun x => { x with phase := 1, swapped := !x.swapped })
  | .dark => trainFail p s

/-- SIGNAL_DETECT (R329). -/
def execSignalDetect (port : Nat) (res : DetectResult) (s : State) : Host.Outcome State Fault Refusal := go s (signalDetectOp port res)

def laneIdOp (p locked : Nat) (s : State) : State :=
  let n := ((List.range 9).filter (bit locked)).length
  if !s.inPhase p 1 then s
  else if n < 8 then trainFail p s
  else s.modPort p (fun x => { x with phase := 2, laneUp := locked % 512, spareUsed := n == 8 })

/-- LANE_IDENTIFICATION (R330): the 8 lowest locked lanes serve, a ninth is the spare. -/
def execLaneIdentification (port locked : Nat) (s : State) : Host.Outcome State Fault Refusal := go s (laneIdOp port locked)

/-- What an identity frame says of the neighbour. -/
def noteIdentity (p : Nat) (i : IdFrame) (s : State) : State :=
  s.modPort p (fun x => { x with nbrCoord := i.coord, nbrMap := i.map % 8, nbrTag := leNat (slice i.tag 0 2) })

def identityExchangeOp (p : Nat) (idf : Option IdFrame) (s : State) : State :=
  if !s.inPhase p 2 then s
  else match idf with
  | none => trainFail p s
  | some i =>
    let s := noteIdentity p i s
    s.modPort p (fun x => { x with phase := 3, proposal := if s.isMatched p then 7 else s.proposalOf p })

/-- IDENTITY_EXCHANGE (R331). -/
def execIdentityExchange (port : Nat) (idf : Option IdFrame) (s : State) : Host.Outcome State Fault Refusal := go s (identityExchangeOp port idf)

def trainingDoneOp (p : Nat) (lat : Option Nat) (s : State) : State :=
  if !s.inPhase p 3 then s
  else match lat with
  | none => trainFail p s
  | some n => settlePort p (s.modPort p (fun x => { x with lat := min 511 n, phase := 0 }))

/-- TRAINING_DONE (R323, Table 14.5). -/
def execTrainingDone (port : Nat) (lat : Option Nat) (s : State) : Host.Outcome State Fault Refusal := go s (trainingDoneOp port lat)

def identityFrameOp (p : Nat) (i : IdFrame) (s : State) : State :=
  if (s.port p).state == 2 || (s.port p).state == 3 then settlePort p (noteIdentity p i s) else s

/-- IDENTITY_FRAME (R331): a broken match moves the port out of UP. -/
def execIdentityFrame (port : Nat) (idf : IdFrame) (s : State) : Host.Outcome State Fault Refusal := go s (identityFrameOp port idf)

/-! ### Link registers (R332, R336, R347) -/

/-- Stored bits of LNK_TORUS, with valid. -/
def torusStored (w : Nat) : Nat := w % 2 ^ 30 + 2 ^ 30

/-- A coordinate outside the size written with it. -/
def torusBad (w : Nat) : Bool := (List.range 3).any (fun a => decide (fld w (15 + 5 * a) 5 < fld w (5 * a) 5))

def lnkTorusNow (p : Path) (w : Word) (s : State) : State :=
  let n := w.toNat
  let code := firstFail [(!s.enabledCwys.isEmpty, 0x66), (torusBad n, 0x61)]
  if code != 0 then report p .link 5 code s
  else
    let first := !bit (s.word 0xD0000) 30
    let unused := fun (s : State) (q : Nat) => s.axisUnused q
    let old := s
    let s := s.setWord 0xD0000 (torusStored n)
    let s := foldS ((List.range 6).filter (fun q => first || unused old q != unused s q)) (fun s q => startTraining q s) s
    report p .link 0 0 (rematch s)

def lnkTorusOp (p : Path) (w : Word) : State → State := inReady (orderly (.lnkTorusWrite p w) (lnkTorusNow p w))

/-- LNK_TORUS_WRITE (R336, R389). -/
def execLnkTorusWrite (p : Path) (w : Word) (s : State) : Host.Outcome State Fault Refusal := go s (lnkTorusOp p w)

/-- Register offset of a port's LNK_PORT_CTRL. -/
def portCtlOff (p : Nat) : Nat := 0xD0100 + 0x20 * p

/-- Some Carriageway that is not DISABLED holds a share in a logical direction. -/
def State.dirShared (s : State) (d : Nat) : Bool := s.enabledCwys.any (fun c => s.pelShare c d != 0)

/-- The code of a map write (R332). -/
def State.mapCode (s : State) (port d : Nat) : Nat :=
  firstFail [(d / 3 != port / 3, 0x61), (d != s.portMap port && (s.dirShared d || s.dirShared (s.portMap port)), 0x66)]

def setMap (port d : Nat) (s : State) : State := rematch (s.setWord (portCtlOff port) (putFld (s.word (portCtlOff port)) 0 3 d))

def portMapNow (p : Path) (port d : Nat) (s : State) : State :=
  let code := s.mapCode port d
  if code != 0 then report p .link 5 code s else report p .link 0 0 (setMap port d s)

def portMapOp (p : Path) (port d : Nat) : State → State :=
  inReady (fun s => if 6 ≤ port || 8 ≤ d then s else orderly (.portMapWrite p port d) (portMapNow p port d) s)

/-- PORT_MAP_WRITE (R332). -/
def execPortMapWrite (p : Path) (port dir : Nat) (s : State) : Host.Outcome State Fault Refusal := go s (portMapOp p port dir)

/-- The disable bit: darkens the port, or starts training. -/
def setDisable (port : Nat) (dis : Bool) (s : State) : State :=
  let was := s.portOff port
  let s := s.setWord (portCtlOff port) (putFld (s.word (portCtlOff port)) 6 1 (b2n dis))
  if dis then (leavePort port 0 s).modPort port (fun x => { x with laneUp := 0, phase := 0 })
  else if was then startTraining port (s.modPort port (fun x => { x with state := 5 }))
  else s

def portDisableOp (p : Path) (port : Nat) (dis : Bool) : State → State :=
  inReady (fun s => if 6 ≤ port then s else report p .link 0 0 (setDisable port dis s))

/-- PORT_DISABLE (R332). -/
def execPortDisable (p : Path) (port : Nat) (dis : Bool) (s : State) : Host.Outcome State Fault Refusal := go s (inTurn (.portDisable p port dis) (portDisableOp p port dis))

def retrainOp (p : Path) (port : Nat) : State → State :=
  inReady (fun s => if 6 ≤ port then s else report p .link 0 0 (startTraining port s))

/-- RETRAIN (R329, Table 14.4). -/
def execRetrain (p : Path) (port : Nat) (s : State) : Host.Outcome State Fault Refusal := go s (inTurn (.retrain p port) (retrainOp p port))

/-- RETRAIN_TIMER (R329): a port in DOWN trains again. -/
def retrainTimerOp (port : Nat) (s : State) : State := if 6 ≤ port || (s.port port).state != 5 then s else startTraining port s

def execRetrainTimer (port : Nat) (s : State) : Host.Outcome State Fault Refusal := go s (retrainTimerOp port)

def lnkThruNow (p : Path) (q : Nat) (w : Word) (s : State) : State :=
  let n := w.toNat
  if fld n 16 3 = q then report p .link 5 0x61 s
  else report p .link 0 0 (s.setWord (0xD0200 + 8 * q) (n % 2 ^ 16 + fld n 16 3 * 2 ^ 16 + fld n 31 1 * 2 ^ 31))

def lnkThruOp (p : Path) (q : Nat) (w : Word) : State → State :=
  inReady (fun s => if 6 ≤ q then s else orderly (.lnkThruWrite p q w) (lnkThruNow p q w) s)

/-- LNK_THRU_WRITE (R347). -/
def execLnkThruWrite (p : Path) (q : Nat) (w : Word) (s : State) : Host.Outcome State Fault Refusal := go s (lnkThruOp p q w)

/-! ### Lanes in service (R333, R334) -/

/-- A lane event; a lost lock sends the lane-change frame at once, as an action of the link level, or, with the spare in use or taken by another lane that
moves, takes the direction down (R264, R334). -/
def laneLossOp (p lane : Nat) (lost : Bool) (s : State) : State :=
  if (s.port p).state != 2 then s
  else
    let s := laneEvent p lane s
    if !lost || (s.port p).moving == some lane then s
    else if (s.port p).spareUsed || (s.port p).moving.isSome then startQueued 40 (dirDown p s)
    else runAction { level := .link, unit := .lane p lane } (laneAction p lane s)

/-- LANE_LOSS_OF_LOCK (R334). -/
def execLaneLossOfLock (port lane : Nat) (lost : Bool) (s : State) : Host.Outcome State Fault Refusal := go s (laneLossOp port lane lost)

/-- LANE_CHANGE_FRAME (R334): with the spare in use, or another lane on its way to it, the port enters DOWN at once. -/
def laneChangeOp (p lane : Nat) (s : State) : State :=
  if (s.port p).state != 2 then s
  else if (s.port p).spareUsed || (s.port p).moving.any (· != lane) then leavePort p 5 s
  else s.modPort p (fun x => { x with moving := some lane })

def execLaneChangeFrame (port lane : Nat) (s : State) : Host.Outcome State Fault Refusal := go s (laneChangeOp port lane)

/-- LANE_SPARE_MOVE (R334): both ends move the lane onto the spare; the lane's action ends with the lane out of
service. -/
def laneMoveOp (p : Nat) (s : State) : State :=
  match (s.port p).moving with
  | none => s
  | some l =>
    if (s.port p).spareUsed then leavePort p 5 s
    else
      let s := s.modPort p (fun x => { x with moving := none, spareUsed := true, spareFor := l })
      startQueued 40 (s.modRas (fun r => { r with running := r.running.filter (fun d => d.unit != .lane p l) }))

def execLaneSpareMove (port : Nat) (s : State) : Host.Outcome State Fault Refusal := go s (laneMoveOp port)

/-! ### FRAME_TRANSMIT (R326 to R328, R346, R348) -/

/-- An idle frame, and a control frame with its payload. -/
def idleFrame (port : Nat) : Bytes := frameData (frameHead 0 port 0 true 0 0 0 0 0 0 0 0 0) [] []
def controlFrame (port : Nat) (payload : Bytes) : Bytes := frameData (frameHead 4 port 2 true 0 0 0 0 0 0 0 0 0) payload []

/-- The payload of an identity frame (R331). -/
def State.identityPayload (s : State) (p : Nat) : Bytes :=
  leBytes 1 0 ++ deviceTag ++ leBytes 8 (s.word 0xD0000 % 2 ^ 30) ++ leBytes 1 p ++ leBytes 1 (s.portMap p)

/-- 416 data bytes leave a port, with their parity (R324). -/
def transmit (p : Nat) (b : Bytes) (s : State) : State := emit (.frame p (fecEncode b)) s

/-- A frame of this member is encrypted as it leaves; a forwarded one is not touched (R338, R342). -/
def leave (c p : Nat) (b : Bytes) (s : State) : State :=
  if fSrc b == s.self c && allZero (fMac b) then
    let x := sealFrame c p b s
    transmit p x.1 x.2
  else transmit p b s

/-- Flits of the next data frame of a transfer: at most 6. -/
def Xfer.burst (x : Xfer) : Nat := min 6 (x.flits - x.sent)

/-- The flits of its next frame have been read from SRAM (R328). -/
def Xfer.burstRead (x : Xfer) : Bool := decide (64 * (x.sent + x.burst) ≤ x.data.length)

/-- The next data frame of a transfer (R328), and what is left of the transfer. -/
def nextData (p : Nat) (x : Xfer) (s : State) : Bytes × Option Xfer :=
  let k := x.burst
  let last := decide (x.flits ≤ x.sent + k)
  let data := slice x.data (64 * x.sent) (64 * k)
  let vc := if s.closed x.cwy x.dir then 1 else 0
  (frameData (frameHead 1 p vc last (s.cwy x.cwy).run.parity (s.jobId x.cwy) x.dmember (s.self x.cwy) x.rxbuf k x.tag x.sent 0) data [],
   if last then none else some { x with sent := x.sent + k })

/-- The first entry that satisfies a condition, and the list without it. -/
def takeFirst {α : Type} (f : α → Bool) : List α → Option (α × List α)
  | [] => none
  | a :: r => if f a then some (a, r) else (takeFirst f r).map (fun x => (x.1, a :: x.2))

/-- One frame of a slot: the first waiting frame, else the next frame of the first transfer once its flits are read,
else idle. -/
def slotFrame (p : Nat) (okF : Nat × Bool × Bytes → Bool) (okX : Xfer → Bool) (s : State) : State :=
  match takeFirst okF (s.port p).fwd with
  | some ((c, _, b), rest) => leave c p b (s.modPort p (fun x => { x with fwd := rest }))
  | none =>
    match takeFirst okX (s.port p).xfers with
    | some (x, rest) =>
      let d := nextData p x s
      if !x.burstRead then transmit p (idleFrame p) s
      else leave x.cwy p d.1 (s.modPort p (fun y => { y with xfers := match d.2 with | some z => z :: rest | none => rest }))
    | none => transmit p (idleFrame p) s

/-- Slot 63: a waiting control payload, an identity frame every 1 ms, else an idle frame; a MISWIRED port sends identity
frames alone (Table 14.5). -/
def controlSlot (p : Nat) (s : State) : State :=
  match if (s.port p).state == 2 then (s.port p).ctl else [] with
  | b :: r => transmit p (controlFrame p b) (s.modPort p (fun x => { x with ctl := r }))
  | [] =>
    if (s.port p).lastId + 100000 ≤ s.pw.refTicks then
      transmit p (controlFrame p (s.identityPayload p)) (s.modPort p (fun x => { x with lastId := s.pw.refTicks }))
    else s.when ((s.port p).state == 2) (transmit p (idleFrame p))

/-- A slot carries its owner's frames: of the job slots those of open directions, of the through slots those of closed ones.
A through slot that no share owns carries any job's Keystone frames on a closure, up to the 7 of R352.  DEDUCED: R346 puts
them into the through slots whether or not the job has a share there (log 181). -/
def frameTransmitOp (p slot : Nat) (s : State) : State :=
  let s := landNow s
  let st := (s.port p).state
  let s := if slot = 0 then s.modPort p (fun x => { x with thruSent := 0 }) else s
  let thru := decide (56 ≤ slot)
  if st != 2 && !(st == 3 && slot == 63) then s
  else if 63 ≤ slot then controlSlot p s
  else match tget (s.port p).slots slot with
    | some c => slotFrame p (fun e => e.1 == c && e.2.1 == thru) (fun x => x.cwy == c && s.closed c x.dir == thru) s
    | none => slotFrame p (fun e => thru && e.2.1) (fun _ => false) s

/-- FRAME_TRANSMIT (R328). -/
def execFrameTransmit (port slot : Nat) (s : State) : Host.Outcome State Fault Refusal := goMem s (frameTransmitOp port slot)

/-! ### Arrivals (R325, R333, R338 to R344, R347) -/

/-- A discarded frame: misrouted, and a direction event, at most one in a step run (R254, R325, R333). -/
def misroute (p : Nat) (s : State) : State :=
  portEvent p (.dir p) (s.modPort p (fun x => { x with misrouted := satAdd 16 x.misrouted 1 }))

/-- The Carriageway whose job a frame names. -/
def State.jobCwy (s : State) (job : Nat) : Option Nat := s.enabledCwys.find? (fun c => s.jobId c == job)

/-- The outgoing port of a through grant that a frame matches (R347). -/
def State.grantPort (s : State) (p : Nat) (b : Bytes) : Option Nat :=
  if fVc b != 1 then none
  else (List.range 6).find? (fun q => s.thru q 31 1 == 1 && s.thru q 16 3 == p && s.thru q 0 16 == fJob b)

/-- A through frame leaves on the grant's port, at most 7 in an epoch (R347); one whose port is not UP, which carries no
job frames (Table 14.5), is dropped. DESIGN CHOICE: uncounted (log 182). -/
def throughFrameOp (p : Nat) (b : Bytes) (s : State) : State :=
  match s.grantPort p b with
  | none => if (s.jobCwy (fJob b)).isSome then s else misroute p s
  | some q =>
    if (s.port q).state != 2 then s
    else if 7 ≤ (s.port q).thruSent then misroute p s
    else transmit q b (s.modPort q (fun x => { x with thruSent := x.thruSent + 1 }))

/-- THROUGH_FRAME (R347). -/
def execThroughFrame (port : Nat) (bytes : List Byte) (s : State) : Host.Outcome State Fault Refusal := go s (throughFrameOp port bytes)

def frameForwardOp (p : Nat) (b : Bytes) (s : State) : State :=
  match s.jobCwy (fJob b) with
  | none => misroute p s
  | some c =>
    if fDst b == s.self c then s
    else match s.route c (s.here c) (s.memberCoord c (fDst b)) with
    | none => s
    | some d => match s.outPort c d with
      | some q => queueFrame c d q b s
      | none => s

/-- FRAME_FORWARD (R338). -/
def execFrameForward (port : Nat) (bytes : List Byte) (s : State) : Host.Outcome State Fault Refusal := go s (frameForwardOp port bytes)

/-- Flits of a frame, sound or damaged, written into its receive buffer; one outside the grant is a link error (R339). -/
def landFlits (c p : Nat) (b data : Bytes) (sound : Bool) (s : State) : State :=
  let d := portDie p
  let g := s.sramGrant c d
  let u0 := 1024 * g.1 + 1024 * fRxbuf b + fOff b
  foldS (List.range (min 6 (fFlits b))) (fun s i =>
    if u0 + i < 1024 * (g.1 + g.2) then sramPut (sramAddr d (u0 + i)) (slice data (64 * i) 64) (if sound then none else some p) s
    else recordErr c (.dir p) 0 s) s

/-- The arrival record of a frame's transfer; the last frame completes it (R339, R340). -/
def noteArrival (c p : Nat) (b : Bytes) (s : State) : State :=
  let same := fun (a : ArrRec) => a.parity == fParity b && a.rxbuf == fRxbuf b && a.tag == fTag b
  let now := if fLast b then some (s.executed (portDie p)) else none
  let cyc := match (s.cwy c).arrivals.find? same with
    | some a => (match a.cyc with | some t => some t | none => now)
    | none => now
  let rec_ : ArrRec := { parity := fParity b, rxbuf := fRxbuf b, tag := fTag b, cyc := cyc, port := p }
  s.modCwy c (fun x => { x with arrivals := x.arrivals.filter (fun a => !same a) ++ [rec_] })

/-- A data frame for this member: opened and written; one that fails FEC, CRC-32C or its tag is written as it arrived and
recorded against its lane or direction (R235, R325, R333, R344). -/
def deliverData (c p : Nat) (b : Bytes) (good : Bool) (lockLost : Option Nat) (s : State) : State :=
  let x := if good then openFrame c p b s else (none, s)
  let s := match x.1 with
    | some pt => landFlits c p b pt true x.2
    | none => landFlits c p b (fPayload b) false (frameErr c p lockLost x.2)
  noteArrival c p b s

/-- A frame with a reserved ftype or vc (R325). -/
def reservedFrame (b : Bytes) : Bool := decide (4 < fType b) || fVc b == 3

/-- A frame that fails FEC or CRC-32C wherever it goes on to: an integrity error of the Carriageway whose job it names,
else an event of its lane or direction (R235, R333). -/
def brokenFrame (p : Nat) (b : Bytes) (lockLost : Option Nat) (s : State) : State :=
  match if (s.grantPort p b).isSome then none else s.jobCwy (fJob b) with
  | some c => frameErr c p lockLost s
  | none => frameEvent p lockLost s

def dataFrameOp (p : Nat) (wire : Bytes) (lockLost : Option Nat) (s : State) : State :=
  let s := landNow s
  if (s.port p).state != 2 then s
  else
    let x := frameBytes wire
    let b := x.1
    let s := noteFixed p wire s
    let s1 := if x.2 then s else brokenFrame p b lockLost s
    if reservedFrame b then misroute p s1
    else if fType b != 1 then s1
    else if (s.grantPort p b).isSome then throughFrameOp p b s1
    else match s.jobCwy (fJob b) with
    | none => misroute p s1
    | some c => if fDst b == s.self c then deliverData c p b x.2 lockLost s else frameForwardOp p b s1

/-- DATA_FRAME_ARRIVAL (R339). -/
def execDataFrameArrival (port : Nat) (wire : List Byte) (lockLost : Option Nat) (s : State) : Host.Outcome State Fault Refusal :=
  goMem s (dataFrameOp port wire lockLost)

/-- NAK_FRAME (R352): the stored release frame leaves again in the next own slot. -/
def nakOp (p c index : Nat) (s : State) : State :=
  match (s.cwy c).jk.sent.find? (fun e => e.1 % 256 == index && e.2.1 == p && fType e.2.2 == 3) with
  | none => s
  | some (_, _, b) =>
    let s := s.setWord 0xD0008 (putFld (s.word 0xD0008) 0 16 (satAdd 16 (fld (s.word 0xD0008) 0 16) 1))
    s.modPort p (fun x => { x with fwd := x.fwd ++ [(c, fVc b == 1, b)] })

def execNakFrame (port c index : Nat) (s : State) : Host.Outcome State Fault Refusal := go s (nakOp port c index)

def reservedFtypeOp (p : Nat) (b : Bytes) (s : State) : State := if reservedFrame b then misroute p s else s

/-- RESERVED_FTYPE_FRAME (R325). -/
def execReservedFtypeFrame (port : Nat) (bytes : List Byte) (s : State) : Host.Outcome State Fault Refusal := go s (reservedFtypeOp port bytes)

end Sys2Proof.Machine
end

