-- ==== Sys2Proof/Machine/Power.lean ====
section
/-! DEFINITION. Clocks, glides, droop, the floor pattern, margin searches, power, energy, the cap loop, hints,
the thermal model and the orderly shutdown (section 13). -/

namespace Sys2Proof.Machine

/-! ### PLL_LOCK_LOSS (R291) -/

/-- A device-scope integrity error: in the error record of every step that runs, else at once (R227, R255). -/
def deviceError (s : State) : State :=
  match (List.range 64).filter (fun c => s.inState c [.running, .stopping]) with
  | [] => eventNow .device 0 0 s
  | cs => foldS cs (fun s c => recordErr c .device 0 s) s

def pllLossOp (d : Die) (s : State) : State :=
  if 8 ≤ d || bit s.pw.clkStopped d then s
  else enterHalt (deviceError (s.modPw (fun p => { p with clkStopped := p.clkStopped ||| 2 ^ d })))

/-- PLL_LOCK_LOSS (R291). -/
def execPllLockLoss (d : Die) (s : State) : Host.Outcome State Fault Refusal := go s (pllLossOp d)

/-! ### The job frequency (R295, R296) -/

/-- Carriageways not DISABLED whose lead is this device (R296). -/
def State.ledHere (s : State) : List Nat := s.enabledCwys.filter s.isLead

/-- The reason that refuses a new target, 0 when none does (R295, R296). -/
def State.freqVerdict (s : State) (n : Nat) : Nat :=
  firstCode [firstFail [(decide (s.minStep < n), 0x21), (decide (32 < n) && s.enabledCwys.any s.pierUse, 0x22),
      (s.enabledCwys.any (fun c => decide (s.fHi c < n)), 0x20)],
    if n < s.pw.target then firstCode (s.ledHere.map (fun c => s.checkDeadlines c n (s.boundTenants c))) else 0]

def jobFreqNow (p : Path) (n : Nat) (s : State) : State :=
  let v := s.freqVerdict n
  if v = 0 then report p .power 0 0 (s.modPw (fun x => { x with target := n, written := true }))
  else report p .power 5 v s

def jobFreqOp (p : Path) (n : Nat) : State → State :=
  inReady (fun s => orderly (.jobFreqWrite p n) (jobFreqNow p (n % 64)) s)

/-- JOB_FREQ_WRITE (R295). -/
def execJobFreqWrite (p : Path) (n : Nat) (s : State) : Host.Outcome State Fault Refusal := go s (jobFreqOp p n)

/-! ### Glides (R299 to R304) -/

/-- Cycles are skipped: no slew proceeds (Table 13.1). -/
def Power.skipping (p : Power) : Bool := p.droop != 0 || p.floor

def slewDoneOp (s : State) : State :=
  match s.pw.slew with
  | some up =>
    if s.pw.frozen then s
    else
      let now := s.pw.core
      let s := match s.pw.slewOf with
        | some c => s.modRun c (fun r => { r with gapFrom := now })
        | none => s
      freqTriggers (s.modPw (fun p => { p with slew := none, slewOf := none, curStep := if up then min 48 (p.curStep + 1) else p.curStep - 1 }))
  | none => s

/-- SLEW_COMPLETE (R299): the pacing gap of the Carriageway whose Keystone applied the step counts from here (R310). -/
def execSlewComplete (s : State) : Host.Outcome State Fault Refusal := go s slewDoneOp

def idleGlideOp (s : State) : State :=
  if s.glideOwner.isSome || s.glideBusy || s.pw.skipping || s.pw.curStep == s.pw.target then s
  else startSlew (decide (s.pw.curStep < s.pw.target)) none s

/-- IDLE_GLIDE_STEP (R301). -/
def execIdleGlideStep (s : State) : Host.Outcome State Fault Refusal := go s idleGlideOp

/-- A slew in progress freezes at its current divider (R304). -/
def Power.freeze (p : Power) : Power := { p with frozen := p.slew.isSome }

/-- The die that trips skips; the other dies mirror it 4 core cycles later, by the next tick (R117, log 159).  A die that
mirrors another's droop skips those cycles already. -/
def droopTripOp (d : Die) (s : State) : State :=
  if 8 ≤ d || bit s.pw.clkStopped d || (bit s.pw.droop d && s.pw.tripped != 0) then s
  else s.modPw (fun p => { p with droop := p.droop ||| 2 ^ d, tripped := p.tripped ||| 2 ^ d }.freeze)

/-- DROOP_TRIP (R302). -/
def execDroopTrip (d : Die) (s : State) : Host.Outcome State Fault Refusal := go s (droopTripOp d)

/-- Skipping ends on the dies that tripped, and on the others 4 core cycles later (R117, R302). -/
def droopClearOp (s : State) : State := s.modPw (fun p => { p with droop := p.droop ^^^ (p.droop &&& p.tripped), tripped := 0 })

/-- DROOP_CLEAR (R302). -/
def execDroopClear (s : State) : Host.Outcome State Fault Refusal := go s droopClearOp

def slewResumeOp (s : State) : State :=
  if s.pw.skipping then s else s.modPw (fun p => { p with frozen := false })

/-- SLEW_RESUME (R304). -/
def execSlewResume (s : State) : Host.Outcome State Fault Refusal := go s slewResumeOp

/-! ### VR_ALERT_N and the floor pattern (R303) -/

/-- PMBus addresses of the core-rail regulators, 0 for none (PWR_VR_CFG). -/
def State.vrAddrs (s : State) : List Nat := (List.range 4).map (fun i => s.vrf (32 + 7 * i) 7)

def vrAssertOp (status : List Nat) (s : State) : State :=
  if s.pw.vrAlert then s
  else
    let s := s.modPw (fun p => { p with vrAlert := true, floor := true }.freeze)
    -- the Housekeeper reads and reports; a stopped one does not (R396)
    if s.pw.shutdown || s.mgt.hkStopped then s
    else
      let s := s.modEn (fun e => { e with marginDue := true })
      let as_ := s.vrAddrs
      let s := foldS (as_.filter (· != 0)) (fun s a => emit (.pmbusRead a) s) s
      post 0x40 0xFF ((List.range 4).flatMap (fun i => leBytes 2 (if as_.getD i 0 = 0 then 0 else status.getD i 0))) s

/-- VR_ALERT_ASSERT (R303). -/
def execVrAlertAssert (status : List Nat) (s : State) : Host.Outcome State Fault Refusal := go s (vrAssertOp status)

def vrDeassertOp (s : State) : State := s.modPw (fun p => { p with vrAlert := false })

/-- VR_ALERT_DEASSERT (R303): the floor holds until FLOOR_RELEASE. -/
def execVrAlertDeassert (s : State) : Host.Outcome State Fault Refusal := go s vrDeassertOp

def floorReleaseOp (s : State) : State :=
  if s.pw.vrAlert || (s.pw.shutdown && !s.pw.shutEnded) then s else s.modPw (fun p => { p with floor := false })

/-- FLOOR_RELEASE (R303). -/
def execFloorRelease (s : State) : Host.Outcome State Fault Refusal := go s floorReleaseOp

/-! ### Core-rail set-points (R293, R294, R313) -/

/-- The largest level of any hint in force while hint_en is 1, times boost_mv. -/
def State.boost (s : State) : Nat :=
  if s.capf 31 1 = 1 then ((s.en.hints.filter (fun h => h.2.on)).map (fun h => h.2.level)).foldl max 0 * s.vrf 16 8 else 0

/-- Set-point of a core rail in mV, at most the operating maximum of 850 mV (R313, R427). -/
def State.setPoint (s : State) (i : Nat) : Nat := min 850 (s.en.base.getD i 800 + s.boost)

/-- The Housekeeper writes the set-points of some rails over PMBus; a stopped one writes none (R396). -/
def pmbusPoints (is : List Nat) (s : State) : State :=
  if s.mgt.hkStopped then s
  else foldS (is.filter (fun i => s.vrf (32 + 7 * i) 7 != 0)) (fun s i => emit (.pmbusSet (s.vrf (32 + 7 * i) 7) (s.setPoint i)) s) s

/-- Set-points that differ from those of an earlier state are written over PMBus. -/
def writePoints (before s : State) : State :=
  pmbusPoints ((List.range 4).filter (fun i => s.setPoint i != before.setPoint i)) s

/-- The set-points that a search tries after the start value of 800 mV (R427): down to 650 mV, or up to 830 mV (R294). -/
def stepsDown : List Nat := (List.range 30).map (fun k => 795 - 5 * k)
def stepsUp : List Nat := (List.range 6).map (fun k => 805 + 5 * k)

/-- Base that a search sets for a die; none when it fails: 20 mV above the last value that passes on the way down, or the
first on the way up, and 670 mV where 650 mV still passes (R294). -/
def searchBase (r : MarginResult) : Option Nat :=
  if r.pass.contains 800 then
    match stepsDown.find? (fun v => !r.pass.contains v) with
    | some v => some (v + 25)
    | none => some 670
  else (stepsUp.find? r.pass.contains).map (· + 20)

/-- The core rail that feeds a die (Table 18.2). -/
def dieRail (d : Nat) : Nat := if d < 3 then 0 else if d < 6 then 1 else d - 4

/-- Dies whose search failed, fenced Spans apart. -/
def State.searchFails (s : State) (res : List MarginResult) : List Nat :=
  (List.range 8).filter (fun d => !s.spanOut d && (searchBase (res.getD d ⟨[]⟩)).isNone)

/-- A rail takes the largest base among the dies it feeds; it keeps its own where none gives one. -/
def railBase (s : State) (res : List MarginResult) (i : Nat) : Nat :=
  let bs := ((List.range 8).filter (fun d => dieRail d == i && !s.spanOut d)).filterMap (fun d => searchBase (res.getD d ⟨[]⟩))
  if bs.isEmpty then s.en.base.getD i 800 else bs.foldl max 0

def setBases (res : List MarginResult) (s : State) : State :=
  writePoints s (s.modEn (fun e => { e with base := (List.range 4).map (railBase s res) }))

/-- A search in service: idle, at most once in each inspection period unless one is due (R293). -/
def marginOp (res : List MarginResult) (s : State) : State :=
  let due := s.en.marginDue || (match s.en.marginBeat with | some b => decide (b + 2 ^ s.inspf 20 6 ≤ serviceBeat s) | none => true)
  if !due || !s.inService || s.mgt.hkStopped || s.chain.check.isSome || (List.range 64).any (fun c => s.inState c [.checking, .starting, .running, .stopping]) then s
  else
    let s := s.modEn (fun e => { e with marginDue := false, marginBeat := some (serviceBeat s) })
    match s.searchFails res with
    | [] => setBases res s
    | fs => foldS fs (fun s d => if d < 6 then fenceFree (.span d) none s else enterHalt s) s

/-- MARGIN_SEARCH (R293, R294). -/
def execMarginSearch (res : List MarginResult) (s : State) : Host.Outcome State Fault Refusal := go s (marginOp res)

/-! ### Power and energy (R306, R307) -/

/-- Set-point voltage of the rail behind a current monitor, in the order of Table 18.2, in mV. -/
def State.railMv (s : State) (i : Nat) : Nat :=
  if i < 4 then s.setPoint i else [1000, 750, 1050, 1800, 850, 3300, 1800].getD (i - 4) 0

/-- Full scale of a current monitor in A (Table 18.3), in the order of Table 18.2. -/
def imonFull (i : Nat) : Nat := [250, 250, 100, 100, 150, 300, 75, 10, 75, 15, 5].getD i 0

/-- Current of a rail in mA: 1.000 V at its IMON input is the full scale, and the input reaches 1.2 V (R428).  DESIGN CHOICE:
the converter resolves 1 mV (log 218). -/
def railMa (i mv : Nat) : Nat := min mv 1200 * imonFull i

def powerSampleOp (mv : List Nat) (s : State) : State :=
  let uw := (List.range 11).map (fun i => s.railMv i * railMa i (mv.getD i 0))
  let pj := uw.sum
  s.modEn (fun e => { e with railUw := uw, devPj := e.devPj + pj, openPj := e.openPj + pj, unattrPj := e.unattrPj + pj })

/-- POWER_SAMPLE (R306, R428): the eleven IMON inputs in mV; microwatts over 1 µs are picojoules.  They are unattributed until ENERGY_SPLIT gives the activity
part to its Carriageways, so that the counters sum to the device's at all times (R307). -/
def execPowerSample (mv : List Nat) (s : State) : Host.Outcome State Fault Refusal := go s (powerSampleOp mv)

/-- Number of an activity kind. -/
def actNum : ActKind → Nat
  | .pierBeat => 0 | .mainArrayCycle => 1 | .girderInstr => 2 | .nocViaductFlit => 3 | .hbmByte => 4 | .pelindFlit => 5

/-- The activity counters of an interval, by 6 × (48 × die + node) + kind (R315). -/
def actCounts (acts : List Activity) : Tab Nat :=
  acts.foldl (fun t a => tmod t (6 * (48 * a.die + a.node) + actNum a.kind) 0 (· + a.count)) []

/-- One event count's energy goes to its Carriageway, and into its next vote (R307, R308). -/
def attribute_ (a : Activity) (s : State) : State :=
  let pj := min (Config.eventPj (actNum a.kind) * a.count) s.en.openPj
  let s := s.modEn (fun e => { e with openPj := e.openPj - pj, unattrPj := e.unattrPj - pj, cwyPj := tmod e.cwyPj a.cwy 0 (· + pj) })
  s.modKey a.cwy (fun k => { k with votePj := k.votePj + pj })

def energySplitOp (acts : List Activity) (s : State) : State :=
  let s := foldS (acts.filter (fun a => decide (a.cwy < 64))) (fun s a => attribute_ a s) s
  { s.modEn (fun e => { e with openPj := 0 }) with thm := { s.thm with activity := actCounts acts } }

/-- ENERGY_SPLIT (R307). -/
def execEnergySplit (acts : List Activity) (s : State) : Host.Outcome State Fault Refusal := go s (energySplitOp acts)

/-! ### The cap loop (R309, R311) -/

/-- The cap gap of the next 100 µs, from the energy of the preceding 1 ms. -/
def State.nextCapGap (s : State) : Nat :=
  let e := s.en.devPj - s.en.capHist.getD 9 0
  let cap := s.capf 0 10 * 10 ^ 9
  min s.paceMax (if cap < e then s.pw.capGap + 64 else if 100 * e < 98 * cap then s.pw.capGap - 32 else s.pw.capGap)

def capLoopOp (s : State) : State :=
  if s.mgt.hkStopped then s
  else
  let g := s.nextCapGap
  let e10 := s.en.devPj - s.en.capHist.getD 99 0
  let quiet := s.en.capQuiet - 1
  let hit := decide (102 * s.capf 0 10 * 10 ^ 10 < 100 * e10) && g == s.paceMax && quiet == 0
  let s := (s.modPw (fun p => { p with capGap := g })).modEn (fun e =>
    { e with capHist := (e.devPj :: e.capHist).take 100, capQuiet := if hit then 1000 else quiet })
  s.when hit (post 0x41 0xFF (leBytes 2 (s.capf 0 10) ++ leBytes 2 (e10 / 10 ^ 10)))

/-- CAP_LOOP (R309). -/
def execCapLoop (s : State) : Host.Outcome State Fault Refusal := go s capLoopOp

/-- PWR_CAP as its card stores a written word, with the ramp_limit given. -/
def capStored (w ramp : Nat) : Nat :=
  clampN (fld w 0 10) 250 700 + ramp * 2 ^ 16 + fld w 31 1 * 2 ^ 31 + max 16 (fld w 32 12) * 2 ^ 32

/-- PWR_CAP written (R312). -/
def pwrCapNow (p : Path) (w : Word) (s : State) : State :=
  let ramp := clampN (fld w.toNat 16 9) 8 256
  let bad := decide (ramp < (s.enabledCwys.map s.rampShare).sum)
  let before := s
  let s := s.setWord 0xA0030 (capStored w.toNat (if bad then s.capf 16 9 else ramp))
  let s := writePoints before (s.modPw (fun x => { x with capGap := min x.capGap s.paceMax, thermGap := min x.thermGap s.paceMax }))
  report p .power (if bad then 5 else 0) (if bad then 0x23 else 0) s

def pwrCapOp (p : Path) (w : Word) : State → State :=
  inReady (fun s => orderly (.pwrCapWrite p w) (pwrCapNow p w) s)

/-- PWR_CAP_WRITE (R312). -/
def execPwrCapWrite (p : Path) (w : Word) (s : State) : Host.Outcome State Fault Refusal := go s (pwrCapOp p w)

/-! ### Hints (R313) -/

def hintStartOp (n : Nat) (s : State) : State :=
  match tget s.en.hints n with
  | some h => writePoints s (s.modEn (fun e => { e with hints := tset e.hints n { h with on := true } }))
  | none => s

/-- HINT_BOOST_START (R313). -/
def execHintBoostStart (n : Nat) (s : State) : Host.Outcome State Fault Refusal := go s (hintStartOp n)

def hintEndOp (n : Nat) (s : State) : State := writePoints s (s.modEn (fun e => { e with hints := tdel e.hints n }))

/-- HINT_WINDOW_END (R313). -/
def execHintWindowEnd (n : Nat) (s : State) : Host.Outcome State Fault Refusal := go s (hintEndOp n)

/-! ### The thermal model (R315, R316, R69) -/

/-- Refresh band of a temperature against the knee (Table 3.8). -/
def bandOf (knee t : Int) : Nat := if knee + 10000 < t then 2 else if knee < t then 1 else 0

/-- The band that a Bay moves to: up at once, down only 2 °C below the boundary (R69). -/
def nextBand (knee t : Int) (b : Nat) : Nat := if b < bandOf knee t then bandOf knee t else min b (bandOf knee (t + 2000))

def bandStep (s : State) (bn : Nat) : State :=
  let b := (s.bay bn).band
  let n := nextBand (1000 * fld (s.word 0x66000) 8 8) (s.bayTemp bn) b
  if n = b then s
  else s.modBay bn (fun y => { y with band := n, bandHist := (s.pw.refTicks, b) :: y.bandHist.filter (fun e => decide (s.pw.refTicks < e.1 + 12800000)) })

/-- Refresh bands of every Bay. -/
def updateBands (s : State) : State := foldS (List.range 1536) bandStep s

/-- The node temperatures of a die. -/
def State.dieTemps (s : State) (d : Nat) : List Int := (List.range 48).map (fun n => tgetD s.thm.node (48 * d + n) 0)

/-- The activity counters of a die over the last interval (R315). -/
def State.dieActivity (s : State) (d : Nat) : List Nat := (List.range 288).map (fun k => tgetD s.thm.activity (288 * d + k) 0)

def thermalStepOp (s : State) : State :=
  let next := allNodes.map (fun e => (48 * e.1 + e.2, Config.rcStep e.1 e.2 (s.dieTemps e.1) s.en.railUw (s.dieActivity e.1)))
  noteAcc (noteCurrent (tempTriggers (updateBands (noteTemps s { s with thm := { s.thm with node := next } }))))

/-- THERMAL_MODEL_STEP (R315). -/
def execThermalModelStep (s : State) : Host.Outcome State Fault Refusal := go s thermalStepOp

/-- Node of a diode (Table 13.2). -/
def diodeNode (d i : Nat) : Nat := if d < 6 then [5, 13, 21, 29, 36, 46].getD i 0 else Config.abutDiode d i % 48

/-- One diode excluded for the rest of the boot. -/
def dropDiode (d i : Nat) (s : State) : State :=
  post 0x46 d (leBytes 1 i) { s with thm := { s.thm with diodeBad := s.thm.diodeBad ||| 2 ^ (6 * d + i) } }

/-- One diode's reading (R316). -/
def diodeOne (vals : List Int) (s : State) (k : Nat) : State :=
  let d := k / 6; let i := k % 6
  if bit s.thm.diodeBad k then s
  else
    let v := vals.getD k 0
    let n := 48 * d + diodeNode d i
    let t := tgetD s.thm.node n 0
    let miss := if 15000 < (v - t).natAbs then tgetD s.thm.diodeMiss k 0 + 1 else 0
    if v < -40000 ∨ 150000 < v ∨ 100 ≤ miss then dropDiode d i s
    else { s with thm := { s.thm with node := tset s.thm.node n (t + (v - t) / 32), diodeMiss := tset s.thm.diodeMiss k miss } }

def diodeReadOp (vals : List Int) (s : State) : State :=
  noteAcc (noteCurrent (updateBands (noteTemps s (foldS (List.range 48) (diodeOne vals) s))))

/-- DIODE_READ (R316). -/
def execDiodeRead (vals : List Int) (s : State) : Host.Outcome State Fault Refusal := go s (diodeReadOp vals)

/-! ### Thresholds (Table 13.3, R317 to R320) -/

/-- Rate of rise of a node over the preceding 1 ms, in 1/1,000 °C; 0 before ten compares have been made. -/
def State.nodeRate (s : State) (d n : Nat) : Int :=
  match s.thm.hist.drop 9 with
  | h :: _ => tgetD s.thm.node (48 * d + n) 0 - tgetD h (48 * d + n) 0
  | [] => 0

def State.rateLim (s : State) (lo : Nat) : Int := 250 * (s.thmf lo 8 : Int)

/-- A node keeps or enters warn (R317). -/
def warnNode (e : Nat × Nat) (s : State) : State :=
  let k := 48 * e.1 + e.2
  let t := s.nodeTemp e.1 e.2
  let hot := 1000 * (s.thmf 0 8 : Int)
  if s.thm.warn.contains k then
    if t ≤ hot - 2000 ∧ 10 ≤ tgetD s.thm.calm k 0 then { s with thm := { s.thm with warn := s.thm.warn.filter (· != k) } } else s
  else if hot ≤ t ∨ s.rateLim 24 < s.nodeRate e.1 e.2 then
    post 0x42 e.1 (leBytes 1 e.2) { s with thm := { s.thm with warn := k :: s.thm.warn } }
  else s

/-- The act condition of one node, and its end (R318). -/
def State.actMet (s : State) (e : Nat × Nat) : Bool :=
  decide (1000 * (s.thmf 8 8 : Int) ≤ s.nodeTemp e.1 e.2) || decide (s.rateLim 32 < s.nodeRate e.1 e.2)
def State.actOver (s : State) (e : Nat × Nat) : Bool :=
  decide (s.nodeTemp e.1 e.2 ≤ 1000 * (s.thmf 8 8 : Int) - 3000) && decide (10 ≤ tgetD s.thm.calm (48 * e.1 + e.2) 0)

/-- The act condition, its event on entry, and the thermal gap (R318). -/
def actStep (s : State) : State :=
  let s := if s.thm.act then { s with thm := { s.thm with act := !allNodes.all s.actOver } }
    else match allNodes.find? s.actMet with
      | some e => post 0x43 e.1 (leBytes 1 e.2) { s with thm := { s.thm with act := true } }
      | none => s
  let g := s.paceMax / 8
  s.modPw (fun p => { p with thermGap := if s.thm.act then min s.paceMax (p.thermGap + g) else p.thermGap - g })

/-- The orderly shutdown starts (R320). -/
def startShutdown (e : Nat × Nat) (s : State) : State :=
  let s := post 0x44 e.1 (leBytes 1 e.2) { s with thm := { s.thm with shut := true } }
  enterHalt (s.modPw (fun p => { p with shutdown := true, floor := true }.freeze))

/-- Consecutive compares in which each node's rate was at or below rate_warn, at most 10. -/
def State.calmNow (s : State) : Tab Nat :=
  allNodes.map (fun e => (48 * e.1 + e.2,
    if s.nodeRate e.1 e.2 ≤ s.rateLim 24 then min 10 (tgetD s.thm.calm (48 * e.1 + e.2) 0 + 1) else 0))

def thermalCompareOp (s : State) : State :=
  let s := { s with thm := { s.thm with calm := s.calmNow } }
  let s := actStep (foldS allNodes (fun s e => warnNode e s) s)
  let s := if s.thm.shut then s
    else match allNodes.find? (fun e => decide (1000 * (s.thmf 16 8 : Int) ≤ s.nodeTemp e.1 e.2)) with
      | some e => startShutdown e s
      | none => s
  { s with thm := { s.thm with hist := (s.thm.node :: s.thm.hist).take 10 } }

/-- THERMAL_COMPARE (R317, R318, R320). -/
def execThermalCompare (s : State) : Host.Outcome State Fault Refusal := go s thermalCompareOp

/-! ### The end of an orderly shutdown, and THERMTRIP_N (R320, R322) -/

/-- Requests that still lack a completion on this device. -/
def State.openReqs (s : State) : Nat := (s.reqs.filter (fun e => e.2.par.ring != 0xFFFFFFFF)).length

/-- The checkpoint row of Table 13.4 is reached: Carriageways were disabled, or none runs any more. -/
def State.shutStopped (s : State) (n : Nat) : Bool := n != 0 || !(List.range 64).any (fun c => s.inState c [.running, .stopping])

def shutdownDoneOp (n : Nat) (s : State) : State :=
  if !s.pw.shutdown || s.pw.shutEnded then s
  else
    let s := s.when (s.shutStopped n) (ledgerRec 5 0 6 0 255 0 0)
    let s := foldS (s.enabledCwys.take n) (fun s c => flush s (pendSweep (toDisabled c (s.modLife c (fun l => { l with stopCause := 5 }))))) s
    let s := post 0x45 0xFF (leBytes 4 s.openReqs) s
    s.modPw (fun p => { p with shutEnded := true, floor := p.vrAlert, clkStopped := p.clkStopped ||| 0x3F, selfRefresh := true })

/-- SHUTDOWN_COMPLETE (R258, R320). -/
def execShutdownComplete (n : Nat) (s : State) : Host.Outcome State Fault Refusal := go s (shutdownDoneOp n)

def thermtripOp (d : Die) (s : State) : State :=
  if 8 ≤ d then s else s.modPw (fun p => { p with clkStopped := p.clkStopped ||| 2 ^ d, thermtrip := true })

/-- THERMTRIP (R322): latched until PERST_N. -/
def execThermtrip (d : Die) (s : State) : Host.Outcome State Fault Refusal := go s (thermtripOp d)

end Sys2Proof.Machine
end

