-- ==== Sys2Proof/Machine/Boot.lean ====
section
/-! DEFINITION. PERST_N, configuration requests, the boot stages, recovery, the security version and the
Housekeeper watchdog (R385 to R398, R422). -/

namespace Sys2Proof.Machine

/-! ### PERST_N and configuration requests -/

/-- What a reset leaves: every register at its reset value; OTP and flash, what left the package, the model's
own draw counter and the commands that wait stay (R385, R395, R420); a reset that left halt-safe makes a margin
search due (R293). -/
def afterReset (perst : Bool) (s : State) : State :=
  let due := s.ras.haltSafe || (s.host.perst && s.en.marginDue)
  { State.reset with host := { State.reset.host with perst := perst }, en := { State.reset.en with marginDue := due }, nv := s.nv,
                     draws := s.draws, out := s.out, pending := s.pending }

/-- PERST_N_DEASSERT (R385): stage ROM begins. -/
def perstDeassertOp (s : State) : State := if s.host.perst then afterReset false s else s
def execPerstNDeassert (s : State) : Host.Outcome State Fault Refusal := .next (perstDeassertOp s)

/-- PERST_N_ASSERT (R395): an image region being programmed is left unknown (R393). -/
def perstAssertOp (s : State) : State :=
  afterReset true (if s.mgt.recResult = 3 then { s with nv := { s.nv with flashImage := none } } else s)
def execPerstNAssert (s : State) : Host.Outcome State Fault Refusal := .next (perstAssertOp s)

/-- Size and kind of the base address register that starts at dword `n` (Table 15.2): 64-bit memory, BAR2 prefetchable. -/
def barOf (n : Nat) : Nat × Nat :=
  if n = 0 then (2 ^ 24, 4) else if n = 2 then (2 ^ 36, 0xC) else (2 ^ 16, 4)

/-- A dword of the base address registers: the address bits that the host has written at or above the register's size,
and the register's kind in bits [3:0].  PRESUMED: the layout of PCIe (log 28). -/
def State.barWord (s : State) (n : Nat) : Nat :=
  let b := n / 2 * 2
  let v := (tgetD s.host.bars b 0 + 2 ^ 32 * tgetD s.host.bars (b + 1) 0) / (barOf b).1 * (barOf b).1
  if n % 2 = 0 then v % 2 ^ 32 + (barOf b).2 else v / 2 ^ 32

/-- Whether a capability is advertised: each that Table 15.1, R355 or R356 uses is, and each that they mark "not used" is
not (R353, R354); of any other the spec says nothing.  PRESUMED: the numbers of PCIe and CXL 3.1 (log 28).
Standard: power management 0x01, PCI Express 0x10, MSI-X 0x11. Extended: ATS 0x0F, SR-IOV 0x10, page requests 0x13,
PASID 0x1B, DVSEC 0x23, DOE 0x2E, IDE 0x30. CXL: device 0, GPF 5, Register Locator 8, multi-logical device 9. -/
def capPresent : CapId → Option Bool
  | .std n => if n = 1 || n = 0x10 || n = 0x11 then some true else none
  | .ext n =>
    if n = 0x0F || n = 0x1B || n = 0x23 || n = 0x2E then some true
    else if n = 0x10 || n = 0x13 || n = 0x30 then some false else none
  | .cxl n => if n = 0 || n = 8 then some true else if n = 5 || n = 9 then some false else none

/-- The `n`-byte word `w` whose bits in `open` the spec leaves free. -/
def configWord (n w mask : Nat) (s : State) : State :=
  let x := drawFree s
  emit (.config (some (leBytes n (w ||| (x.1 &&& mask))))) x.2

/-- Answer to a configuration request once VERIFY has completed or RECOVERY is entered (R353 to R356, R358, R386). -/
def configAnswer (q : ConfigReq) (s : State) : State :=
  let h := fun (f : HostIf → HostIf) => emit (.config (some [])) (s.modHost f)
  match q with
  -- Type 0, one function; another function does not answer
  | .readHeaderType => emit (.config (some [0])) s
  | .readFunction n => if n = 0 then configWord 4 0 0xFFFFFFFF s else emit (.config (some (List.replicate 4 0xFF))) s
  | .readCapability c =>
    match capPresent c with
    | some b => emit (.config (some [BitVec.ofNat 8 (b2n b)])) s
    | none => configWord 1 0 1 s
  -- Device Capabilities bit 28, function-level reset, is 0
  | .readDeviceCap => configWord 4 0 0xEFFFFFFF s
  -- D1 and D2 support, bits 9 and 10 of the power-management capabilities, are 0; no PME but from D0 and D3hot
  | .readPmCap => configWord 2 0 0x49FF s
  -- a PASID of 20 bits
  | .readPasidCap => configWord 2 0x1400 0x6 s
  -- 2,048 vectors; table at BAR4 0x0000, pending bits at BAR4 0x8000
  | .readMsixCap => emit (.config (some (leBytes 2 0x7FF ++ leBytes 4 4 ++ leBytes 4 0x8004))) s
  -- size high and low of the one HDM range, 64 GiB
  | .readHdmRange => let x := drawFree s; emit (.config (some (leBytes 4 0x10 ++ leBytes 4 (x.1 % 2 ^ 28)))) x.2
  -- component registers (identifier 1) in BAR0 at 0x00FF_0000
  | .readRegisterLocator => emit (.config (some (leBytes 4 0x00FF0100 ++ leBytes 4 0))) s
  | .readBar n => emit (.config (some (leBytes 4 (if n < 6 then s.barWord n else 0)))) s
  | .writeBar n v => h (fun x => { x with bars := if n < 6 then tset x.bars n (v % 2 ^ 32) else x.bars })
  | .readUhlaeminDvsec => emit (.config (some [1, 0, BitVec.ofNat 8 (b2n s.mgt.recFlag)])) s
  | .readCxlDvsec => emit (.config (some (leBytes 2 0x4017))) s
  | .readClass => emit (.config (some [0, 0, 0x12])) s
  | .readOther _ => let x := drawFree s; emit (.config (some (leBytes 4 x.1))) x.2
  | .setCacheEnable b => h (fun x => { x with cacheEn := b })
  | .setMemEnable b => h (fun x => { x with memEn := b })
  | .setBackInvalidate b => h (fun x => { x with biEn := b })
  | .setPasidEnable b => h (fun x => { x with pasidEn := b })
  | .setAtsEnable b => h (fun x => { x with atsEn := b, atc := if b then x.atc else [] })

def configOp (q : ConfigReq) (s : State) : State :=
  if s.mgt.stage == 1 || s.mgt.stage == 2 then emit (.config none) s else configAnswer q s

/-- CONFIG_REQUEST (R386). -/
def execConfigRequest (q : ConfigReq) (s : State) : Host.Outcome State Fault Refusal := go s (configOp q)

/-! ### Images (Table 16.3, R391) -/

/-- The header part of R391's conditions: 2 format or range, 3 key digest, 4 svn. -/
def headerCause (otp : Nat) (h : Bytes) : Nat :=
  let len := getLe h 8 4
  firstFail [
    (getLe h 0 4 != 0x46574E58 || getLe h 4 2 != 1 || decide (63 < getLe h 6 2) || decide (len < 1 ∨ 4186112 < len) ||
      decide (len ≤ getLe h 12 4) || !allZero (slice h 32 32) || !allZero (slice h 2016 32) || !allZero (slice h 5357 2835), 2),
    (shake 32 (slice h 64 1952) != (List.range 32).map Config.vendorRootByte, 3),
    (decide (getLe h 6 2 < otp), 4)]

/-- The 64-byte image digest (R391). -/
def imageDigestOf (h code : Bytes) : Bytes := shake 64 (slice h 0 2048 ++ slice code 0 (getLe h 8 4))

/-- The signature condition: 5 when it does not verify. -/
def signCause (h code : Bytes) : Nat :=
  if Config.mldsaVerify (slice h 64 1952) (imageDigestOf h code) (slice h 2048 3309) then 0 else 5

/-- RECOVERY is entered (R391, R392, R386). -/
def enterRecovery (cause : Nat) (s : State) : State :=
  s.modMgt (fun m => { m with stage := 0x0E, recCause := cause, recFlag := true, doeOn := true, imageDigest := [], fwSvn := 0 })

/-- FAILED is entered: halt-safe, with its cause and die (R385). -/
def enterFailed (cause die : Nat) (s : State) : State :=
  enterHalt (s.modMgt (fun m => { m with stage := 0x0F, failCause := cause, failDie := die }))

/-- Bytes of the image region: erased while a received image is being programmed (R393), else what the device last
programmed, else what the flash delivers. -/
def State.imageBytes (s : State) (off n : Nat) (b : Bytes) : Bytes :=
  if s.mgt.recResult = 3 then List.replicate n 0xFF
  else match s.nv.flashImage with
  | some m => memBytes m off n
  | none => b

/-- A verified image runs. -/
def startImage (h code : Bytes) (s : State) : State :=
  s.modMgt (fun m => { m with hdr := slice h 0 8192, imageDigest := imageDigestOf h code, fwSvn := getLe h 6 2 })

/-! ### Boot stages (Table 16.1) -/

/-- A boot stage runs, and the Housekeeper with it (R396). -/
def State.stageIs (s : State) (k : Nat) : Bool := s.mgt.stage == k && !s.mgt.hkStopped

def stageRomOp (hdr : Option Bytes) (s : State) : State :=
  if !s.stageIs 1 then s
  else match hdr with
  | none => enterRecovery 1 s
  | some b =>
    let h := slice (s.imageBytes 0 8192 b) 0 8192
    let c := headerCause s.nv.otpSvn h
    if c = 0 then s.modMgt (fun m => { m with stage := 2, hdr := h }) else enterRecovery c s

/-- STAGE_ROM (R391). -/
def execStageRom (hdr : Option (List Byte)) (s : State) : Host.Outcome State Fault Refusal := go s (stageRomOp hdr)

def stageVerifyOp (flash : Option Bytes) (s : State) : State :=
  if !s.stageIs 2 then s
  else match flash with
  | none => enterRecovery 1 s
  | some code =>
    let h := s.mgt.hdr
    let b := s.imageBytes 8192 (getLe h 8 4) code
    let c := signCause h b
    if c = 0 then (startImage h b s).modMgt (fun m => { m with stage := 3, doeOn := true }) else enterRecovery c s

/-- STAGE_VERIFY (R391). -/
def execStageVerify (code : Option (List Byte)) (s : State) : Host.Outcome State Fault Refusal := go s (stageVerifyOp code)

/-- Spans that fail at DIES: their PLL, or a bundle from the Span to an Abutment (R387). -/
def diesFailed (pllFail : List Nat) (linkFail : List Nat) : List Nat :=
  (List.range 6).filter (fun d => pllFail.contains d || linkFail.contains (1024 + 2 * d) || linkFail.contains (1025 + 2 * d))

def stageDiesOp (pllFail : List Die) (linkFail : List Nat) (s : State) : State :=
  if !s.stageIs 3 then s
  else
    let s := s.modPw (fun p => { p with clkStopped := (pllFail.eraseDups.filter (· < 8)).foldl (fun a d => a ||| 2 ^ d) p.clkStopped })
    if pllFail.contains 6 then enterFailed 3 6 s
    else if pllFail.contains 7 || linkFail.contains 1043 then enterFailed 2 7 s
    else
      let s := s.modRas (fun r => { r with
        spanFenced := (diesFailed pllFail linkFail).foldl (fun a d => a ||| 2 ^ d) r.spanFenced
        lostLinks := r.lostLinks ++ (linkFail.eraseDups.filter (fun l => decide (1036 ≤ l ∧ l ≤ 1042))) })
      s.modMgt (fun m => { m with stage := 4 })

/-- STAGE_DIES (R387). -/
def execStageDies (pllFail : List Die) (linkFail : List Nat) (s : State) : Host.Outcome State Fault Refusal :=
  go s (stageDiesOp pllFail linkFail)

def stageHbmOp (failRows spareRows : List Nat) (s : State) : State :=
  if !s.stageIs 4 then s
  else match (List.range 8).find? (fun k => decide (spareRows.getD k 0 < failRows.getD k 0)) with
  | some k => enterFailed 1 (8 + k) s
  | none => { s with hbm := [] }.modMgt (fun m => { m with stage := 5 })

/-- STAGE_HBM (R388). -/
def execStageHbm (failRows spareRows : List Nat) (s : State) : Host.Outcome State Fault Refusal := goMem s (stageHbmOp failRows spareRows)

/-! ### The Ledger at boot (R258, R398) -/

/-- A record's CRC-32C holds. -/
def recGood (r : Bytes) : Bool := r.length == 32 && getLe r 28 4 == crc32c (slice r 0 28)

/-- The unit that a record names (Table 11.2). -/
def recUnit (r : Bytes) : Option WinUnit :=
  let die := getLe r 2 1; let bay := getLe r 3 1; let i := getLe r 4 1
  match getLe r 1 1 with
  | 0 => some (.pier die bay i) | 1 => some (.bay die bay) | 2 => some (.girder die i) | 3 => some (.span die)
  | 4 => some (.via (1024 + bay)) | 5 => some (.lane bay i) | 6 => some (.dir bay) | 7 => some .device | _ => none

/-- A unit is shown fenced again, or back in service (R258).  DEDUCED (log 22): a Span fence record restores its fence too. -/
def setFence (u : WinUnit) (on : Bool) (s : State) : State :=
  match u with
  | .pier sp b p => s.modPier (bayNo sp b) p (fun x => { x with state := if on then 3 else 0 })
  | .bay sp b => s.modBay (bayNo sp b) (fun x => { x with fenced := on })
  | .girder sp g => s.modGirder (girNo sp g) (fun x => { x with fenced := on })
  | .span sp => s.modRas (fun r => { r with spanFenced := if on then r.spanFenced ||| 2 ^ sp else r.spanFenced })
  | _ => s

/-- A fence record restored: the unit is fenced, and a mapped Pier's remap stands on the spare that the record names. -/
def restoreFence (u : WinUnit) (spare : Nat) (s : State) : State :=
  let s := setFence u true s
  match u with
  | .pier sp b p => (match s.logicalOf (bayNo sp b) p with
    | some l => if spare < 17 then moveMap (bayNo sp b) l spare s else s
    | none => s)
  | _ => s

/-- One record restored: events into windows, fences with their remaps, clears. -/
def restoreRec (s : State) (r : Bytes) : State :=
  match recUnit r with
  | none => s
  | some u =>
    match getLe r 0 1 with
    | 1 => s.modRas (fun x => { x with evts := x.evts ++ [{ unit := u, stamp := getLe r 8 8, cause := getLe r 5 1 }] })
    | 2 => restoreFence u (getLe r 20 4) s
    | 6 => setFence u false (s.modRas (fun x => { x with evts := x.evts.filter (fun e => e.unit != u) }))
    | _ => s

/-- The boot record, and the fence records of the Spans that DIES fenced, all written in LEDGER (R258, R387). -/
def bootRecords (dies : List Nat) (s : State) : State :=
  let t := (foldS dies (fun s d => ledgerUnit 2 0 255 (.span d) s) (ledgerRec 7 0 6 0 255 0 0 { s with ledger := { s.ledger with queue := [] } })).ledger.queue
  foldS t (fun s r => ledgerAppend r s) s

def stageLedgerOp (recs : Option (List Bytes)) (s : State) : State :=
  if !s.stageIs 5 then s
  else
    let all := recs.getD []
    let rs := all.filter recGood
    let marks := rs.filter (fun r => getLe r 0 1 == 5 || getLe r 0 1 == 7)
    match marks.getLast? with
    | none => enterFailed 4 0 s
    | some m =>
      let base := match (rs.filter (fun r => getLe r 0 1 == 5)).getLast? with | some c => getLe c 8 8 | none => 0
      let s := s.modLedger (fun l => { l with boot := s.nv.epoch * 2 ^ 28 + (getLe m 16 4 + 1) % 2 ^ 28, bad := min 255 (all.length - rs.length), ok := true
                                              log := all, base := 0, beatBase := base, beatCore := s.pw.core })
      let s := s.modRas (fun r => { r with inspFrom := base })
      (bootRecords ((List.range 6).filter s.spanOut) (foldS rs restoreRec s)).modMgt (fun m => { m with stage := 6 })

/-- STAGE_LEDGER (R258). -/
def execStageLedger (recs : Option (List (List Byte))) (s : State) : Host.Outcome State Fault Refusal := go s (stageLedgerOp recs)

/-! ### MARGIN and CAL -/

def stageMarginOp (res : List MarginResult) (s : State) : State :=
  if !s.stageIs 6 then s
  else
    let fs := s.searchFails res
    match fs.find? (fun d => decide (6 ≤ d)) with
    | some d => enterFailed 5 d s
    | none =>
      let s := foldS fs (fun s d => fenceFree (.span d) none s) s
      let s := (setBases res s).modMgt (fun m => { m with stage := 7 })
      foldS s.baysUp (fun s b => triggerPass b s) s

/-- STAGE_MARGIN (R294): the bring-up pass of every Bay not fenced then starts (R283). -/
def execStageMargin (res : List MarginResult) (s : State) : Host.Outcome State Fault Refusal := go s (stageMarginOp res)

def stageCalOp (s : State) : State := if s.stageIs 7 then (bringUpPasses s).modMgt (fun m => { m with stage := 8 }) else s

/-- STAGE_CAL (R385): the passes of bring-up that CAL_PASS_DONE has not ended complete with it (log 24). -/
def execStageCal (s : State) : Host.Outcome State Fault Refusal := go s stageCalOp

/-! ### The recovery mailbox (R392, R393, R398) -/

/-- The device waits for an image, and the Housekeeper runs. -/
def State.recovering (s : State) : Bool := s.mgt.stage == 0x0E && !s.mgt.hkStopped

def recBufferOp (off : Nat) (data : Bytes) (s : State) : State :=
  let n := data.length
  if !s.recovering || n < 4 || 4096 < off % 4096 + n || 32768 < off + n then s
  else s.modMgt (fun m => { m with recBuf := memPut m.recBuf off data })

/-- REC_BUFFER_WRITE (R392, R412). -/
def execRecBufferWrite (off : Nat) (data : List Byte) (s : State) : Host.Outcome State Fault Refusal := go s (recBufferOp off data)

/-- Verification or programming runs: the mailbox takes no load command. -/
def State.recBusy (s : State) : Bool := s.mgt.recResult == 2 || s.mgt.recResult == 3

/-- A load ends refused with its cause. -/
def recRefuse (cause : Nat) (s : State) : State := s.modMgt (fun m => { m with recResult := 5, recStat := cause })

def recBeginOp (len : Nat) (s : State) : State :=
  if !s.recovering || s.recBusy then s
  else if len < 8193 || 4194304 < len then recRefuse 6 s
  else s.modMgt (fun m => { m with recResult := 1, recStat := 0, recLen := len, recImage := [], nextChunk := 0, received := 0 })

/-- REC_BEGIN (R392). -/
def execRecBegin (len : Nat) (s : State) : Host.Outcome State Fault Refusal := go s (recBeginOp len)

def recChunkOp (chunk count : Nat) (s : State) : State :=
  let m := s.mgt
  if !s.recovering || s.recBusy then s
  else if m.recResult != 1 || chunk != m.nextChunk || m.recLen ≤ m.received || count != min 32768 (m.recLen - m.received) then recRefuse 6 s
  else
    let add := (memSlice m.recBuf 0 count).map (fun e => (e.1 + m.received, e.2))
    s.modMgt (fun m => { m with recImage := m.recImage ++ add, nextChunk := m.nextChunk + 1, received := m.received + count })

/-- REC_CHUNK (R392). -/
def execRecChunk (chunk count : Nat) (s : State) : Host.Outcome State Fault Refusal := go s (recChunkOp chunk count)

def recFinishOp (s : State) : State :=
  if !s.recovering || s.mgt.recResult != 1 then s
  else if s.mgt.received != s.mgt.recLen then recRefuse 6 s
  else s.modMgt (fun m => { m with recResult := 2 })

/-- REC_FINISH (R393). -/
def execRecFinish (s : State) : Host.Outcome State Fault Refusal := go s recFinishOp

def recAbortOp (s : State) : State :=
  if !s.recovering || s.recBusy then s
  else s.modMgt (fun m => { m with recResult := 0, recStat := 0, recLen := 0, recImage := [], nextChunk := 0, received := 0 })

/-- REC_ABORT (R392). -/
def execRecAbort (s : State) : Host.Outcome State Fault Refusal := go s recAbortOp

/-- Command 5 in FAILED with cause 4: a new Ledger, and boot goes on at MARGIN.  Halt-safe stays, which only PERST_N
leaves (R395, log 25). -/
def recReinitOp (s : State) : State :=
  if s.mgt.hkStopped || s.mgt.stage != 0x0F || s.mgt.failCause != 4 then s
  else if 15 ≤ s.nv.epoch then recRefuse 9 s
  else
    let e := s.nv.epoch + 1
    let s := emit (.otpEpoch e) { s with nv := { s.nv with epoch := e } }
    let s := (s.modRas (fun r => { r with inspFrom := 0 })).modLedger (fun l => { l with boot := e * 2 ^ 28, log := [], queue := [], base := 0, ok := true, beatBase := 0, beatCore := s.pw.core })
    bootRecords ((List.range 6).filter s.spanOut) (s.modMgt (fun m => { m with stage := 6, failCause := 0 }))

/-- REC_REINIT_LEDGER (R398). -/
def execRecReinitLedger (s : State) : Host.Outcome State Fault Refusal := goNv s recReinitOp

/-- Header and code of the received image. -/
def State.recHead (s : State) : Bytes := memBytes s.mgt.recImage 0 8192
def State.recCode (s : State) : Bytes := memBytes s.mgt.recImage 8192 (getLe s.recHead 8 4)

/-- The first condition of R391 that the received image fails, 0 when it meets them all. -/
def State.recCause (s : State) : Nat :=
  firstCode [headerCause s.nv.otpSvn s.recHead, if 8192 + getLe s.recHead 8 4 ≤ s.mgt.recLen then 0 else 2, signCause s.recHead s.recCode]

/-- The verification of the received image ends (R391, R393): it is refused, or the image region is erased and is being
programmed.  Time ends it: the next tick, or the report that programming is over (log 26). -/
def recVerify (s : State) : State :=
  if !s.recovering || s.mgt.recResult != 2 then s
  else if s.recCause ≠ 0 then recRefuse s.recCause s
  else emit (.flashErase 0 (2 ^ 22)) (s.modMgt (fun m => { m with recResult := 3 }))

/-- Programming and read-back end: the verified copy starts, also where they failed; a copy that replaces a Housekeeper
whose watchdog expired is restarted firmware (R397). -/
def recProgramOp (programmed readBack : Bool) (s : State) : State :=
  let s := recVerify s
  if !s.recovering || s.mgt.recResult != 3 then s
  else
    let im := s.mgt.recImage
    let s := if programmed then emit (.flash 0 (memBytes im 0 s.mgt.recLen)) s else s
    let s := { s with nv := { s.nv with flashImage := if programmed && readBack then some im else none } }
    (startImage s.recHead s.recCode s).modMgt (fun m => { m with
      recResult := 4, recStat := if !programmed then 7 else if !readBack then 8 else 0, recFlag := false, stage := 3, rebooted := m.expired })

/-- RECOVERY_PROGRAM_DONE (R393). -/
def execRecoveryProgramDone (programmed readBack : Bool) (s : State) : Host.Outcome State Fault Refusal :=
  goNv s (recProgramOp programmed readBack)

/-! ### COMMIT_SVN (R394, R422) -/

def commitSvnOp (cmd : Nat) (s : State) : State :=
  if !s.inService || s.mgt.hkResult == 1 || s.mgt.hkStopped then s
  else (s.setWord 0xF0200 (cmd % 256 * 2 ^ 56)).modMgt (fun m => { m with hkResult := if cmd % 256 = 1 then 1 else 3 })

/-- COMMIT_SVN (R422). -/
def execCommitSvn (cmd : Nat) (s : State) : Host.Outcome State Fault Refusal := go s (inTurn (.commitSvn cmd) (commitSvnOp cmd))

def commitDoneOp (s : State) : State :=
  if s.mgt.hkResult != 1 || s.mgt.hkStopped then s
  else
    let s := if s.nv.otpSvn < s.mgt.fwSvn then emit (.otpSvn s.mgt.fwSvn) { s with nv := { s.nv with otpSvn := s.mgt.fwSvn } } else s
    s.modMgt (fun m => { m with hkResult := 2, hkDetail := s.nv.otpSvn })

/-- COMMIT_SVN_DONE (R394). -/
def execCommitSvnDone (s : State) : Host.Outcome State Fault Refusal := goNv s commitDoneOp

/-! ### The watchdog (R396, R397) -/

def watchdogOp (s : State) : State :=
  if s.mgt.expired then s
  else
    let s := (s.modMgt (fun m => { m with expired := true })).modChain (fun x => { x with alertLatch := x.alertLatch ||| 1 })
    raise (fld (s.word 0xF0010) 2 11) (enterHalt s)

/-- WATCHDOG_EXPIRY (R396). -/
def execWatchdogExpiry (s : State) : Host.Outcome State Fault Refusal := go s watchdogOp

def hkErrorOp (s : State) : State := s.modMgt (fun m => { m with hkStopped := true })

/-- HK_UNCORRECTABLE_ERROR (R396). -/
def execHkUncorrectableError (s : State) : Host.Outcome State Fault Refusal := go s hkErrorOp

/-- The Housekeeper reboots alone: the boot ROM runs, and then the image that it verifies, else its recovery loop, which is no
restarted firmware (R397).
DEDUCED: an image that verifies in RECOVERY leaves it as a load does, for stage DIES, and restarted firmware writes the set-points (log 195). -/
def hkRestartOp (p : Path) (hdr : Option Bytes) (flash : Option Bytes) (s : State) : State :=
  if p == .fleet || !s.mgt.expired then s
  else
    let s := s.modMgt (fun m => { m with hkStopped := false, rebooted := false })
    match hdr with
    | none => enterRecovery 1 s
    | some b =>
      let h := slice (s.imageBytes 0 8192 b) 0 8192
      let c := headerCause s.nv.otpSvn h
      if c ≠ 0 then enterRecovery c s
      else match flash with
      | none => enterRecovery 1 s
      | some code =>
        let x := s.imageBytes 8192 (getLe h 8 4) code
        if signCause h x ≠ 0 then enterRecovery 5 s
        else
          pmbusPoints (List.range 4) ((startImage h x s).modMgt (fun m => { m with
            rebooted := true, recFlag := false, stage := if m.stage = 0x0E then 3 else m.stage }))

/-- HOUSEKEEPER_RESTART (R397). -/
def execHousekeeperRestart (p : Path) (hdr code : Option (List Byte)) (s : State) : Host.Outcome State Fault Refusal :=
  go s (hkRestartOp p hdr code)

def wdogServiceOp (s : State) : State :=
  if s.mgt.hkStopped then s
  else
    let s := s.modMgt (fun m => { m with wdogTimeout := fld (s.word 0xF0010) 32 16 })
    if s.mgt.expired && s.mgt.rebooted then s.modMgt (fun m => { m with expired := false, rebooted := false, restarts := satAdd 8 m.restarts 1 }) else s

/-- WATCHDOG_SERVICE (R397). -/
def execWatchdogService (s : State) : Host.Outcome State Fault Refusal := go s wdogServiceOp

end Sys2Proof.Machine
end

