-- ==== Sys2Proof/Machine/Spdm.lean ====
section
/-! DEFINITION. The SPDM responder on its two paths and the measurement blocks (R410, Table 16.6).  Message layouts,
codes, transcripts and what is signed are PRESUMED from SPDM 1.4, which the spec names and does not reproduce (log 80). -/

namespace Sys2Proof.Machine

/-- Code of a Carriageway state (Table 7.1). -/
def CState.code : CState → Nat
  | .disabled => 0 | .checking => 1 | .starting => 2 | .running => 3 | .stopping => 4 | .stopped => 5


/-- The certificate chain of slot 0. -/
def certChain : Bytes := (List.range Config.chainLen).map Config.chainByte

/-! ### Measurement blocks (Table 16.6) -/

/-- Block 0x10 + c: zeros while the Carriageway is DISABLED. -/
def State.cwyBlock (s : State) (c : Nat) : Bytes :=
  let x := s.cwy c
  if x.life.state == .disabled then zeros 145
  else leBytes 1 x.life.state.code ++ slice x.life.buildId 0 16 ++ slice x.life.keyDigest 0 64 ++ slice x.w.wset 0 64

/-- The content of a measurement block; none for an index that Table 16.6 does not list. -/
def State.measurement (s : State) (i : Nat) : Option Bytes :=
  if i = 1 then some ((List.range 64).map Config.romDigestByte)
  else if i = 2 then some (if s.mgt.stage == 0x0E then zeros 64 else slice s.mgt.imageDigest 0 64)
  else if i = 3 then some (leBytes 1 s.mgt.fwSvn ++ leBytes 1 s.nv.otpSvn ++ leBytes 1 s.nv.epoch)
  else if i = 4 then some ((List.range 6).map (fun p => BitVec.ofNat 8 (fmax p)) ++ leBytes 1 s.ras.spanFenced)
  else if i = 5 then some ((List.range Config.kemCertLen).map Config.kemCertByte)
  else if 0x10 ≤ i ∧ i < 0x50 then some (s.cwyBlock (i - 0x10))
  else none

/-- Indices of every block. -/
def allBlocks : List Nat := [1, 2, 3, 4, 5] ++ (List.range 64).map (· + 0x10)

/-- DMTF value type of a block: 0 ROM digest, 1 firmware digest, else raw bytes of a hardware configuration, a manifest or a
firmware configuration. -/
def blockType (i : Nat) : Nat := if i = 1 then 0 else if i = 2 then 1 else if i = 4 then 0x82 else if i = 5 then 0x84 else 0x83

/-- One measurement block as it is sent: index, specification, size, and the DMTF value. -/
def State.blockBytes (s : State) (i : Nat) : Bytes :=
  match s.measurement i with
  | some b => leBytes 1 i ++ leBytes 1 1 ++ leBytes 2 (b.length + 3) ++ leBytes 1 (blockType i) ++ leBytes 2 b.length ++ b
  | none => []

/-! ### Messages -/

/-- The head of a message: version, code and two parameters. -/
def spdmHead (ver code p1 p2 : Nat) : Bytes := leBytes 1 ver ++ leBytes 1 code ++ leBytes 1 p1 ++ leBytes 1 p2

/-- The request code of a message. -/
def spdmCode (m : Bytes) : Nat := getLe m 1 1

/-- An ERROR message. -/
def spdmError (code data : Nat) (s : State) : Bytes × State := (spdmHead 0x14 0x7F code data, s)

/-- The errors of SPDM that the responder gives: a malformed or unsupported choice, a request out of order, one that it does
not support, and another version than 1.4. -/
def invalidRequest : Nat := 1
def unexpectedRequest : Nat := 4
def unsupportedRequest : Nat := 7
def versionMismatch : Nat := 0x41

/-! ### The responder -/

def State.conn (s : State) (p : SpdmPath) : SpdmConn := match p with | .doe => s.chain.spdmDoe | .trestle => s.chain.spdmTrs

def State.modConn (s : State) (p : SpdmPath) (f : SpdmConn → SpdmConn) : State :=
  match p with
  | .doe => s.modChain (fun x => { x with spdmDoe := f x.spdmDoe })
  | .trestle => s.modChain (fun x => { x with spdmTrs := f x.spdmTrs })

/-- A request of version 1.4, of its least length and in its turn; a request other than GET_MEASUREMENTS ends the
transcript of measurements. -/
def inOrder (p : SpdmPath) (turn : Bool) (len : Nat) (m : Bytes) (f : State → Bytes × State) (s : State) : Bytes × State :=
  if getLe m 0 1 ≠ 0x14 then spdmError versionMismatch 0 s
  else if !turn then spdmError unexpectedRequest 0 s
  else if m.length < len then spdmError invalidRequest 0 s
  else f (if spdmCode m = 0xE0 then s else s.modConn p (fun x => { x with measures := [] }))

/-- The bytes over which the identity key signs (SPDM 1.2 and later): the prefix, the context in 36 bytes, and the digest of
the transcript. -/
def signOver (context : String) (transcript : Bytes) : Bytes :=
  let ascii := fun (x : String) => x.toList.map (fun c => BitVec.ofNat 8 c.toNat)
  let ctx := ascii context
  idSign ((List.replicate 4 (ascii "dmtf-spdm-v1.4.*")).flatten ++ zeros (36 - ctx.length) ++ ctx ++ sha3 transcript)

def challengeContext : String := "responder-challenge_auth signing"
def measuresContext : String := "responder-measurements signing"

/-- GET_VERSION starts the connection over. -/
def getVersionMsg (p : SpdmPath) (m : Bytes) (s : State) : Bytes × State :=
  if getLe m 0 1 ≠ 0x10 then spdmError versionMismatch 0 s
  else
    let r := spdmHead 0x10 0x04 0 0 ++ leBytes 2 0x0100 ++ leBytes 2 0x1400
    (r, s.modConn p (fun _ => { version := true, agreed := m ++ r }))

/-- CAPABILITIES: certificates, challenges and signed measurements. -/
def getCapsMsg (p : SpdmPath) (m : Bytes) (s : State) : Bytes × State :=
  inOrder p ((s.conn p).version && !(s.conn p).caps) 20 m (fun s =>
    let z := fun (i n : Nat) => (List.range n).map (fun k => Config.spdmSizeByte (i + k))
    let r := spdmHead 0x14 0x61 0 0 ++ zeros 1 ++ z 0 1 ++ zeros 2 ++ leBytes 4 0x16 ++ z 1 8
    (r, s.modConn p (fun x => { x with caps := true, agreed := x.agreed ++ m ++ r }))) s

/-- ALGORITHMS: DMTF measurements, SHA3-512 as measurement and base hash, ML-DSA-65 (R410). -/
def negotiateMsg (p : SpdmPath) (m : Bytes) (s : State) : Bytes × State :=
  inOrder p ((s.conn p).caps && !(s.conn p).algs) 32 m (fun s =>
    if !bit (getLe m 12 4) 5 || !bit (getLe m 16 4) 1 then spdmError invalidRequest 0 s
    else
      let r := spdmHead 0x14 0x63 0 0 ++ leBytes 2 36 ++ leBytes 1 1 ++ zeros 1 ++ leBytes 4 0x40 ++ zeros 4 ++ leBytes 4 0x20 ++
        leBytes 4 2 ++ zeros 12
      (r, s.modConn p (fun x => { x with algs := true, agreed := x.agreed ++ m ++ r }))) s

/-- A request of digests or of the certificate and its response enter the transcript of a challenge. -/
def noteCerts (p : SpdmPath) (m r : Bytes) (s : State) : Bytes × State := (r, s.modConn p (fun x => { x with certs := x.certs ++ m ++ r }))

def digestsMsg (p : SpdmPath) (m : Bytes) (s : State) : Bytes × State :=
  inOrder p (s.conn p).algs 4 m (noteCerts p m (spdmHead 0x14 0x01 1 1 ++ sha3 certChain)) s

/-- CERTIFICATE of slot 0: the portion asked for, and how much remains. -/
def certificateMsg (p : SpdmPath) (m : Bytes) (s : State) : Bytes × State :=
  inOrder p (s.conn p).algs 8 m (fun s =>
    let off := getLe m 4 2
    if getLe m 2 1 % 16 ≠ 0 ∨ Config.chainLen ≤ off then spdmError invalidRequest 0 s
    else
      let part := (certChain.drop off).take (getLe m 6 2)
      noteCerts p m (spdmHead 0x14 0x02 0 0 ++ leBytes 2 part.length ++ leBytes 2 (Config.chainLen - off - part.length) ++ part) s) s

/-- The summary hash that a challenge asks for: none, over the blocks of the trusted computing base, or over all. -/
def State.summary (s : State) (kind : Nat) : Bytes :=
  if kind = 0 then [] else sha3 ((allBlocks.filter (fun i => kind == 0xFF || Config.tcbBlock i)).flatMap s.blockBytes)

/-- CHALLENGE_AUTH, signed over everything agreed, the certificate messages since, and the challenge itself; these start over. -/
def challengeMsg (p : SpdmPath) (m : Bytes) (s : State) : Bytes × State :=
  inOrder p (s.conn p).algs 44 m (fun s =>
    let kind := getLe m 3 1
    if getLe m 2 1 ≠ 0 ∨ (kind ≠ 0 ∧ kind ≠ 1 ∧ kind ≠ 0xFF) then spdmError invalidRequest 0 s
    else
      let n := drawRandom 32 s
      let r := spdmHead 0x14 0x03 0 1 ++ sha3 certChain ++ n.1 ++ s.summary kind ++ zeros 2 ++ slice m 36 8
      let x := s.conn p
      (r ++ signOver challengeContext (x.agreed ++ x.certs ++ m ++ r), n.2.modConn p (fun x => { x with certs := [] }))) s

/-- The least length of a GET_MEASUREMENTS: with a nonce and a slot where it asks for a signature. -/
def measuresLen (m : Bytes) : Nat := if bit (getLe m 2 1) 0 then 45 else 12

/-- MEASUREMENTS: the count alone for index 0, one block, or all for 0xFF; signed, where asked, over everything agreed and the
measurement messages since the last signature. -/
def measurementsMsg (p : SpdmPath) (m : Bytes) (s : State) : Bytes × State :=
  inOrder p (s.conn p).algs (measuresLen m) m (fun s =>
    let i := getLe m 3 1
    let sign := bit (getLe m 2 1) 0
    if (i ≠ 0 ∧ i ≠ 0xFF ∧ (s.measurement i).isNone) ∨ (sign ∧ getLe m 36 1 % 16 ≠ 0) then spdmError invalidRequest 0 s
    else
      let idx := if i = 0 then [] else if i = 0xFF then allBlocks else [i]
      let rec_ := idx.flatMap s.blockBytes
      let n := drawRandom 32 s
      let r := spdmHead 0x14 0x60 (if i = 0 then allBlocks.length else 0) 0 ++ leBytes 1 idx.length ++ leBytes 3 rec_.length ++ rec_ ++
        n.1 ++ zeros 2 ++ slice m (measuresLen m - 8) 8
      let x := s.conn p
      if sign then
        (r ++ signOver measuresContext (x.agreed ++ x.measures ++ m ++ r), n.2.modConn p (fun x => { x with certs := [], measures := [] }))
      else (r, n.2.modConn p (fun x => { x with certs := [], measures := x.measures ++ m ++ r }))) s

/-- Every other request (R410). -/
def unsupportedMsg (m : Bytes) (s : State) : Bytes × State := spdmError unsupportedRequest (spdmCode m) s

/-- The response to a message, and the state after it. -/
def spdmReply (p : SpdmPath) (m : Bytes) (s : State) : Bytes × State :=
  match spdmCode m with
  | 0x84 => getVersionMsg p m s
  | 0xE1 => getCapsMsg p m s
  | 0xE3 => negotiateMsg p m s
  | 0x81 => digestsMsg p m s
  | 0x82 => certificateMsg p m s
  | 0x83 => challengeMsg p m s
  | 0xE0 => measurementsMsg p m s
  | _ => unsupportedMsg m s

/-- The DOE mailbox answers from the end of VERIFY or from RECOVERY (R386); Trestle SPDM frames only in service (R406);
neither while the Housekeeper, which carries the responder, has stopped (R396). -/
def State.spdmOpen (s : State) (p : SpdmPath) : Bool := !s.mgt.hkStopped && match p with | .doe => s.mgt.doeOn | .trestle => s.inService

/-- One SPDM request on a path. -/
def spdmOp (p : SpdmPath) (f : State → Bytes × State) (s : State) : State :=
  if s.spdmOpen p then (let r := f s; emit (.spdm p r.1) r.2) else s

/-- GET_VERSION (R410). -/
def execGetVersion (q : SpdmMsg) (s : State) : Host.Outcome State Fault Refusal := go s (spdmOp q.path (getVersionMsg q.path q.bytes))

/-- GET_CAPABILITIES (R410). -/
def execGetCapabilities (q : SpdmMsg) (s : State) : Host.Outcome State Fault Refusal := go s (spdmOp q.path (getCapsMsg q.path q.bytes))

/-- NEGOTIATE_ALGORITHMS (R410). -/
def execNegotiateAlgorithms (p : SpdmPath) (head body : List Byte) (s : State) : Host.Outcome State Fault Refusal :=
  go s (spdmOp p (negotiateMsg p (head ++ body)))

/-- GET_DIGESTS (R410). -/
def execGetDigests (q : SpdmMsg) (s : State) : Host.Outcome State Fault Refusal := go s (spdmOp q.path (digestsMsg q.path q.bytes))

/-- GET_CERTIFICATE (R410). -/
def execGetCertificate (p : SpdmPath) (head off len : List Byte) (s : State) : Host.Outcome State Fault Refusal :=
  go s (spdmOp p (certificateMsg p (head ++ off ++ len)))

/-- CHALLENGE (R410). -/
def execChallenge (p : SpdmPath) (head body : List Byte) (s : State) : Host.Outcome State Fault Refusal :=
  go s (spdmOp p (challengeMsg p (head ++ body)))

/-- GET_MEASUREMENTS (R410). -/
def execGetMeasurements (p : SpdmPath) (head nonce body : List Byte) (s : State) : Host.Outcome State Fault Refusal :=
  go s (spdmOp p (measurementsMsg p (head ++ nonce ++ body)))

/-- SPDM_UNSUPPORTED_REQUEST (R410): any other request. -/
def execSpdmUnsupportedRequest (p : SpdmPath) (msg : List Byte) (s : State) : Host.Outcome State Fault Refusal := go s (spdmOp p (unsupportedMsg msg))

end Sys2Proof.Machine
end

