-- ==== Sys2Proof/Machine/Regs.lean ====
section
/-! DEFINITION. The register map: the value that every BAR0 word reads, and what a write of it stores or starts
(section 17 and every register card). -/

namespace Sys2Proof.Machine

/-! ### Values of registers -/

/-- A word from its fields: lowest bit, width, value. -/
def pack (l : List (Nat × Nat × Nat)) : Nat := (l.map (fun e => e.2.2 % 2 ^ e.2.1 * 2 ^ e.1)).sum

/-- Numbers of n bits each, the first lowest. -/
def packList (n : Nat) (l : List Nat) : Nat := l.foldr (fun v a => v % 2 ^ n + 2 ^ n * a) 0

/-- Degrees Celsius, signed, of a temperature in 1/1,000 °C. -/
def degC (t : Int) : Nat := uint 8 (t / 1000)

/-- DEV_ block. -/
def State.devWord (s : State) (off : Nat) : Nat :=
  if off = 0 then pack [(48, 8, Config.stepping.toNat), (32, 16, 0x384), (16, 16, 1), (0, 16, Config.vendor.toNat)]
  else if off = 0x8 then getLe deviceTag 0 8
  else if off = 0x10 then getLe deviceTag 8 8
  else if off = 0x20 then pack [(56, 8, 1), (50, 6, 63 - s.ras.spanFenced % 64), (49, 1, 1), (48, 1, 1), (40, 8, 64), (29, 11, 1024), (16, 11, 1088), (0, 12, 2048)]
  else if off = 0x100 then 0x0000200000010000
  else 0

/-- HOST_CTRL. -/
def State.hostCtrl (s : State) : Nat :=
  let h := s.host
  s.word 0x10000 + pack [(8, 2, if h.width = 16 then 2 else if h.width = 8 then 1 else 0), (6, 2, if h.rate = 64 then 2 else if h.rate = 32 then 1 else 0),
    (4, 1, b2n h.biEn), (3, 1, b2n (h.memEn && h.biEn)), (2, 1, b2n h.cacheEn), (1, 1, b2n h.polling)]

/-- Word k of HOST_RING of ring r. -/
def State.ringWord (s : State) (r k : Nat) : Nat :=
  let x := s.ring r
  s.word (ringBase r + 8 * k) + (if k = 0 then pack [(0, 1, b2n x.enable), (2, 2, x.state), (4, 4, x.cause), (8, 8, x.reason)] else 0)

/-- HOST_ block. -/
def State.hostWord (s : State) (off : Nat) : Nat :=
  let h := s.host
  if off = 0x10000 then s.hostCtrl
  else if off = 0x10010 then s.word off + pack [(63, 1, b2n h.hdmEn), (24, 8, h.hdmReason)]
  else if off = 0x10020 then s.word off + pack [(63, 1, b2n h.landEn), (24, 8, h.landReason)]
  else if off = 0x10040 then pack [(0, 1, b2n h.evt.enable), (1, 1, b2n h.evt.ovf)]
  else if off = 0x10050 then s.word off + pack [(8, 16, h.evt.lost)]
  else if off = 0x10048 ∨ off = 0x10058 then s.word off
  else if 0x14000 ≤ off ∧ off < 0x14000 + 0x20 * 1088 then s.ringWord ((off - 0x14000) / 32) (off % 32 / 8)
  else 0

/-- Word k of TEN_SPANDREL of slot n. -/
def State.spandrelWord (s : State) (n k : Nat) : Nat :=
  let x := s.sp n
  if k = 0 then pack [(0, 3, x.state), (25, 10, x.tenant), (35, 6, x.cwy), (41, 23, x.lenU)]
  else if k = 1 then pack [(0, 39, x.base)]
  else if k = 2 then pack [(0, 21, x.pins), (32, 32, x.version)]
  else getLe x.digest 0 8

/-- Word k of TEN_SLOT of slot t. -/
def State.tenWord (s : State) (t k : Nat) : Nat :=
  let x := s.tenant t
  s.word (tenBase t + 8 * k) +
    (if k = 0 then b2n x.bound else if k = 1 then pack [(32, 8, x.spandrel), (40, 1, b2n x.spEn)]
     else if k = 3 then pack [(54, 2, x.keyState), (56, 8, x.reason)] else 0)

/-- TEN_ block. -/
def State.tenBlock (s : State) (off : Nat) : Nat :=
  if off < 0x30000 then s.tenWord ((off - 0x20000) / 64) (off % 64 / 8)
  else if off < 0x30000 + 0x10 * 1024 then s.word off
  else if 0x38000 ≤ off ∧ off < 0x38000 + 0x20 * 256 then s.spandrelWord ((off - 0x38000) / 32) (off % 32 / 8)
  else 0

/-- CWY_WSTATE, its lower word. -/
def State.wstateWord (s : State) (c : Nat) : Nat :=
  let w := (s.cwy c).w
  let d := match w.replace with | some r => r.done | none => 0
  let n := match w.replace with | some r => r.count - r.done | none => 0
  pack [(0, 3, w.wstate), (32, 8, w.holdLayer), (40, 8, n), (48, 8, d), (56, 8, w.badLayer)]

/-- Offset o in the window of Carriageway c. -/
def State.cwyWord (s : State) (c o : Nat) : Nat :=
  let l := (s.cwy c).life
  if o = 0 then b2n l.enable
  else if o = 0x10 then pack [(0, 3, l.state.code), (16, 8, l.reason), (32, 8, l.orderStatus), (40, 8, l.stopCause)]
  else if o = 0x18 then l.step % 2 ^ 64
  else if o = 0x60 then s.wstateWord c
  else if o = 0x68 then getLe (s.cwy c).w.wset 0 8
  else if o = 0x20 ∨ (0x30 ≤ o ∧ o < 0x60) ∨ o = 0x80 ∨ (0x100 ≤ o ∧ o < 0x180) then s.word (cwyBase c + o)
  else 0

/-- PIER_BAY_MAP of a Bay, 128 bits. -/
def State.bayMapCard (s : State) (b : Nat) : Nat :=
  let y := s.bay b
  packList 5 y.map + pack [(80, 1, y.mode.getD 0), (81, 1, b2n (y.programmed 17)), (82, 5, s.sparePhys b)] +
    2 ^ 88 * packList 2 ((List.range 17).map (s.pstate b))

/-- Largest time since last refresh over all programmed Piers, in units of 10 µs. -/
def State.worstAge (s : State) : Nat :=
  min 65535 ((s.bays.flatMap (fun e => (e.2.piers.filter (fun p => p.2.state == 2)).map (fun p => (s.pw.refTicks - p.2.lastRefresh) / 1000))).foldl max 0)

/-- PIER_ block. -/
def State.pierBlock (s : State) (off : Nat) : Nat :=
  if off < 0x66000 then fld (s.bayMapCard ((off - 0x60000) / 16)) (64 * (off % 16 / 8)) 64
  else if off = 0x66000 then s.word off
  else if off = 0x66008 then pack [(0, 16, s.worstAge), (16, 16, s.refreshRetry), (32, 16, s.refreshFail)]
  else 0

/-- Position of a level in RAS_RQ_STATUS.busy. -/
def Level.busyBit : Level → Nat
  | .pier => 16 | .bay => 17 | .job => 18 | .link => 19 | .span => 20

/-- An action of a level runs; the job level's are the takeover barriers and the Carriageway stops (Table 11.3). -/
def State.levelBusy (s : State) (l : Level) : Bool :=
  s.ras.running.any (fun d => d.level == l) ||
    (l == .job && s.cwys.any (fun e => e.2.key.barrier || decide (3 ≤ e.2.life.stopPend)))

/-- RAS_ block. -/
def State.rasBlock (s : State) (off : Nat) : Nat :=
  let r := s.ras
  if off = 0x80010 then
    pack ([(0, 6, r.queue.length), (32, 8, r.escal), (40, 1, b2n r.haltSafe)] ++
      ([Level.pier, .bay, .job, .link, .span].map (fun l => (l.busyBit, 1, b2n (s.levelBusy l)))))
  else if off = 0x80020 then
    pack [(32, 32, s.ledger.boot), (16, 8, s.ledger.bad), (8, 8, min 100 (100 * s.ledger.log.length / ledgerSize)), (1, 1, b2n s.ledger.compacting), (0, 1, b2n s.ledger.ok)]
  else if off = 0x80000 ∨ off = 0x80030 then s.word off
  else 0

/-- PWR_STATUS. -/
def State.pwrStatus (s : State) : Nat :=
  let p := s.pw
  pack [(56, 8, p.reason), (48, 8, p.orderStatus), (32, 12, s.paceGap), (26, 1, b2n p.shutdown), (25, 1, b2n p.floor), (24, 1, b2n p.vrAlert),
    (16, 8, p.droop), (9, 1, b2n p.frozen), (8, 1, b2n (p.curStep != p.target)), (0, 6, p.curStep)]

/-- Energy attributed to a Carriageway, in whole µJ. -/
def State.cwyUj (s : State) (c : Nat) : Nat := tgetD s.en.cwyPj c 0 / 1000000

/-- PWR_ block; energies in whole µJ.  What is read sums exactly (R307): the unattributed energy is what the Carriageways'
counters leave of the device's (log 112). -/
def State.pwrBlock (s : State) (off : Nat) : Nat :=
  let uj := fun (n : Nat) => n / 1000000 % 2 ^ 64
  if off = 0xA0000 then pack ([(48, 6, s.minStep)] ++ (List.range 6).map (fun i => (8 * i, 6, fmax i)))
  else if off = 0xA0010 then pack [(31, 1, b2n s.pw.written), (0, 6, s.pw.target)]
  else if off = 0xA0020 then s.pwrStatus
  else if off = 0xA0030 ∨ off = 0xA0040 then s.word off
  else if off = 0xA0050 then uj s.en.devPj
  else if off = 0xA0058 then (s.en.devPj / 1000000 - ((List.range 64).map s.cwyUj).sum) % 2 ^ 64
  else if 0xA1000 ≤ off ∧ off < 0xA1400 then
    (let c := (off - 0xA1000) / 16; if off % 16 = 0 then s.cwyUj c % 2 ^ 64 else s.exemptPs c / 10000 % 2 ^ 64)
  else if 0xA2000 ≤ off ∧ off < 0xA2000 + 8 * 1088 then uj (tgetD s.en.ringPj ((off - 0xA2000) / 8) 0)
  else 0

/-- The die and node that hold the highest temperature. -/
def State.hottest (s : State) : Nat × Nat :=
  allNodes.foldl (fun a e => if tgetD s.thm.node (48 * a.1 + a.2) 0 < tgetD s.thm.node (48 * e.1 + e.2) 0 then e else a) (0, 0)

/-- Largest rate of rise, in 0.25 °C/ms units. -/
def State.rateMax (s : State) : Nat := min 255 ((allNodes.map (fun e => s.nodeRate e.1 e.2)).foldl max 0 / 250).toNat

/-- THM_ block. -/
def State.thmBlock (s : State) (off : Nat) : Nat :=
  let t := s.thm
  let h := s.hottest
  if off = 0xB0000 then s.word off
  else if off = 0xB0010 then
    pack [(16, 48, t.diodeBad), (3, 1, b2n t.shut), (2, 1, b2n t.act), (1, 1, b2n (!t.warn.isEmpty)), (0, 1, b2n ((List.range 8).all (fun d => decide (3 ≤ s.diodesUp d))))]
  else if off = 0xB0018 then pack [(32, 8, s.rateMax), (24, 8, h.2), (21, 3, h.1), (8, 8, degC (tgetD t.node (48 * h.1 + h.2) 0))]
  else if 0xB1000 ≤ off ∧ off < 0xB1200 ∧ off % 64 < 48 then
    (let k := 48 * ((off - 0xB1000) / 64) + off % 64
     packList 8 ((List.range 8).map (fun i => degC (tgetD t.node (k + i) 0))))
  else 0

/-- CAL_BAY_STATUS. -/
def State.bayStatus (s : State) (b : Nat) : Nat :=
  let y := s.bay b
  let age := match y.oldest with | some e => min 0xFFFFFF ((serviceBeat s - e.1) / 4096) | none => 0xFFFFFF
  let tmp := match y.oldest with | some e => degC e.2 | none => 0
  let int_ := y.ready.any (fun p => (y.pier p).passBeat.isSome && !(y.pier p).passVref)
  pack [(40, 24, age), (32, 8, tmp), (24, 8, y.calFails), (3, 1, b2n y.calPending), (2, 1, b2n y.calRunning), (1, 1, b2n int_), (0, 1, b2n (s.calCurrent b))]

/-- CAL_ block. -/
def State.calBlock (s : State) (off : Nat) : Nat :=
  if off = 0xC0000 then s.word off
  else if off = 0xC0010 then
    pack [(48, 16, s.vref.faults), (16, 16, uint 16 s.vref.sample), (8, 3, s.vref.fault), (1, 1, b2n s.vref.internal), (0, 1, b2n s.vref.refOk)]
  else if 0xC1000 ≤ off ∧ off < 0xC1000 + 8 * 1536 then s.bayStatus ((off - 0xC1000) / 8)
  else 0

/-- LNK_PORT_STATUS of a port, 128 bits. -/
def State.portCard (s : State) (p : Nat) : Nat :=
  let x := s.port p
  pack [(112, 16, x.authFail), (96, 16, x.misrouted), (80, 16, x.nbrTag), (71, 9, x.lat), (68, 3, x.proposal), (65, 3, x.nbrMap),
    (60, 5, x.nbrCoord.1), (55, 5, x.nbrCoord.2.1), (50, 5, x.nbrCoord.2.2), (36, 4, x.spareFor), (35, 1, b2n x.spareUsed), (26, 9, x.laneUp), (0, 3, x.state)]

/-- LNK_ block. -/
def State.lnkBlock (s : State) (off : Nat) : Nat :=
  if off = 0xD0000 ∨ off = 0xD0008 then s.word off
  else if 0xD0100 ≤ off ∧ off < 0xD01C0 then
    (let p := (off - 0xD0100) / 32; let o := off % 32
     if o = 0 then s.word off else if o = 8 then fld (s.portCard p) 0 64 else if o = 16 then fld (s.portCard p) 64 64 else 0)
  else if 0xD0200 ≤ off ∧ off < 0xD0230 then s.word off
  else if 0xD1000 ≤ off ∧ off < 0xD1800 then
    (if off % 32 = 0 then s.word off else if off % 32 = 8 then (s.cwy ((off - 0xD1000) / 32)).jk.state % 4 else 0)
  else if 0xD2000 ≤ off ∧ off < 0xD2800 ∧ off % 32 < 24 then s.word off
  else 0

/-- SEC_ block. -/
def State.secBlock (s : State) (off : Nat) : Nat :=
  let c := s.certs
  if off = 0xE0400 then
    pack [(38, 13, min 4096 (ceilDiv ((c.closed.map Window.size).sum) (2 ^ 20))), (18, 16, c.unsigned), (2, 16, c.retract), (0, 1, b2n c.signerOk)]
  else if off = 0xE0408 then c.lastSigned
  else 0

/-- MGT_ block.  DESIGN CHOICE (log 154): MGT_BOOT_STATUS shows its reset value at the instant of PERST_N and what boot
firmware writes from the first reference tick on (R7, R420). -/
def State.mgtBlock (s : State) (off : Nat) : Nat :=
  let m := s.mgt
  if off = 0xF0000 then
    if m.stage = 1 ∧ s.pw.refTicks = 0 then 0 else pack [(56, 8, m.fwSvn), (48, 8, s.nv.otpSvn), (44, 4, s.nv.epoch), (32, 4, m.failDie), (24, 8, m.failCause), (16, 8, m.recCause), (0, 8, m.stage)]
  else if off = 0xF0010 then s.word off + pack [(24, 8, m.restarts), (1, 1, b2n m.expired)]
  else if off = 0xF0020 then
    pack [(14, 1, b2n s.chain.addr.isSome), (8, 6, s.chain.addr.getD 0), (3, 1, b2n (s.alertBits != 0)), (2, 1, b2n s.chain.reversed),
      (1, 1, b2n s.chain.isoDout), (0, 1, b2n s.chain.isoDin)]
  else if off = 0xF0108 then pack [(56, 8, m.recResult), (48, 8, m.recStat), (32, 16, m.nextChunk), (0, 32, m.received)]
  else if off = 0xF0200 then s.word off + pack [(48, 8, m.hkResult), (40, 8, m.hkDetail)]
  else 0

/-- The current value of the 64-bit BAR0 word at an 8-byte-aligned offset (R386, R411). -/
def State.regWord (s : State) (off : Nat) : Nat :=
  if off < 0x10000 then s.devWord off
  else if off < 0x20000 then s.hostWord off
  else if 0xF0000 ≤ off ∧ off < 0xF8000 then s.mgtBlock off
  else if !s.inService then 0
  else if off < 0x40000 then s.tenBlock off
  else if off < 0x50000 then s.cwyWord ((off - 0x40000) / 0x400) (off % 0x400)
  else if off < 0x60000 then 0
  else if off < 0x80000 then s.pierBlock off
  else if off < 0xA0000 then s.rasBlock off
  else if off < 0xB0000 then s.pwrBlock off
  else if off < 0xC0000 then s.thmBlock off
  else if off < 0xD0000 then s.calBlock off
  else if off < 0xE0000 then s.lnkBlock off
  else if off < 0xF0000 then s.secBlock off
  else 0

/-- Registers of several words: first offset, stride, how many, words. -/
def wideRegs : List (Nat × Nat × Nat × Nat) :=
  [(0x8, 1, 1, 2), (0x10040, 1, 1, 4), (0x14000, 0x20, 1088, 4), (0x20000, 0x40, 1024, 8), (0x30000, 0x10, 1024, 2), (0x38000, 0x20, 256, 4),
   (0x40010, 0x400, 64, 2), (0x40030, 0x400, 64, 2), (0x40040, 0x400, 64, 4), (0x40060, 0x400, 64, 2), (0x40100, 0x400, 64, 16),
   (0x60000, 0x10, 1536, 2), (0xA0050, 1, 1, 2), (0xA1000, 0x10, 64, 2), (0xB0010, 1, 1, 2), (0xB1000, 0x40, 8, 6),
   (0xD0108, 0x20, 6, 2), (0xD1000, 0x20, 64, 2), (0xD2000, 0x20, 64, 4), (0xE0400, 1, 1, 2)]

/-- The multi-word register that holds an offset: its lowest offset and its words. -/
def wideOf (off : Nat) : Option (Nat × Nat) :=
  wideRegs.findSome? (fun e =>
    if off < e.1 then none
    else
      let i := if e.2.2.1 = 1 then 0 else (off - e.1) / e.2.1
      let base := e.1 + i * e.2.1
      if i < e.2.2.1 ∧ off < base + 8 * e.2.2.2 then some (base, e.2.2.2) else none)

/-! ### CXL component registers (R356, R411) -/

/-- The capability of the one HDM decoder, behind the header of the CXL.cachemem registers. -/
def hdmCap : Nat := 0x1010

/-- Control word of the HDM decoder: bit 8 locks on commit, bit 9 commits and bit 10 shows that it is committed. -/
def hdmCtl : Nat := hdmCap + 0x20

/-- A 32-bit word of the CXL component registers.  PRESUMED: the layouts of CXL 3.1, with the HDM decoder capability as the one
that the spec names; the rest of the set reads 0 (log 219). -/
def State.compWord (s : State) (o : Nat) : Nat :=
  if o = 0x1000 then pack [(0, 16, 1), (16, 4, 1), (20, 4, 1), (24, 8, 1)]
  else if o = 0x1004 then pack [(0, 16, 5), (16, 4, 3), (20, 12, 0x10)]
  else tgetD s.host.comp o 0

/-- The HDM decoder is committed and locked. -/
def State.hdmFixed (s : State) : Bool := bit (s.compWord hdmCtl) 8 && bit (s.compWord hdmCtl) 10

/-- A write of a 32-bit word of the CXL component registers: the decoder's enable, base, size, skip and control. -/
def compWrite (o v : Nat) (s : State) : State :=
  let put := fun (v : Nat) => s.modHost (fun h => { h with comp := tset h.comp o v })
  if o = hdmCap + 4 then put (v &&& 2)
  else if s.hdmFixed then s
  else if o = hdmCap + 0x10 ∨ o = hdmCap + 0x18 ∨ o = hdmCap + 0x24 then put (v &&& 0xF0000000)
  else if o = hdmCap + 0x14 ∨ o = hdmCap + 0x1C ∨ o = hdmCap + 0x28 then put (v % 2 ^ 32)
  else if o = hdmCtl then put ((v &&& 0x13FF) + fld v 9 1 * 2 ^ 10)
  else s

/-- The CXL component registers in BAR0. -/
def compBase : Nat := 0xFF0000

/-! ### Reads with capture (R415) -/

/-- The word that a path reads at an offset: the CXL component registers read 0 over Trestle (R418). -/
def State.pathWord (s : State) (p : Path) (off : Nat) : Nat :=
  if off < compBase then s.regWord off
  else if p == .host then s.compWord (off - compBase) + s.compWord (off - compBase + 4) * 2 ^ 32
  else 0

/-- The words that a path has captured. -/
def Chain.cap (x : Chain) : Path → Tab Word
  | .host => x.capHost
  | .fleet => x.capFleet

/-- A path captures words. -/
def capture (p : Path) (l : List (Nat × Word)) (s : State) : State :=
  s.modChain (fun x => match p with
    | .host => { x with capHost := l.foldl (fun t e => tset t e.1 e.2) x.capHost }
    | .fleet => { x with capFleet := l.foldl (fun t e => tset t e.1 e.2) x.capFleet })

/-- A path's read of one word: the lowest word captures its register, a higher one answers from the capture.  No row of the
opcode table is a read on the host path (log 33). -/
def regRead (p : Path) (off : Nat) (s : State) : Nat × State :=
  match wideOf off with
  | none => (s.pathWord p off, s)
  | some (base, n) =>
    if off = base then
      (s.regWord off, capture p ((List.range n).map (fun k => (base + 8 * k, BitVec.ofNat 64 (s.regWord (base + 8 * k))))) s)
    else match tget (s.chain.cap p) off with
      | some w => (w.toNat, s)
      | none => (s.regWord off, s)

/-- Consecutive words read in ascending offset. -/
def regReads (p : Path) (n off : Nat) (s : State) : List Nat × State :=
  match n with
  | 0 => ([], s)
  | k + 1 => let r := regRead p off s; let t := regReads p k (off + 8) r.2; (r.1 :: t.1, t.2)

/-! ### Writes -/

/-- Stored bits of an RWL word, unless its owning enable was set when the write arrived (R414). -/
def storeRwl (off mask w : Nat) (s : State) : State := if s.lockedNow off then s else s.setWord off (w &&& mask)

/-- HOST_ block: available before READY (R386). -/
def writeHost (off w : Nat) (s : State) : State :=
  if off = 0x10000 then s.setWord off (pack [(32, 16, clampN (fld w 32 16) 1 1000), (0, 1, w)])
  else if off = 0x10010 then hdmMapOp (BitVec.ofNat 64 w) s
  else if off = 0x10020 then landMapOp (BitVec.ofNat 64 w) s
  else if off = 0x10040 then (if bit w 0 then eventEnableOp s else s.modEvt (fun e => { e with enable := false }))
  else if off = 0x10048 then storeRwl off (0xFFFF * 2 ^ 48) w s
  else if off = 0x10050 then storeRwl off ((2 ^ 40 - 1) * 2 ^ 24) w s
  else if off = 0x10058 then storeRwl off (2 ^ 64 - 1) w s
  else if 0x14000 ≤ off ∧ off < 0x14000 + 0x20 * 1088 then
    let r := (off - 0x14000) / 32; let k := off % 32 / 8
    if k = 0 then
      let s := storeRwl off (if r < 1024 then 0x3F * 2 ^ 58 else 0) w s
      if bit w 0 then ringEnableOp r s else ringDisableOp r s
    else if k = 1 then storeRwl off (2 ^ 64 - 1 - (if r < 1024 then 0 else 15)) w s
    else storeRwl off (2 ^ 64 - 1) w s
  else s

/-- TEN_ block. -/
def writeTen (off w : Nat) (s : State) : State :=
  if off < 0x30000 then
    let t := (off - 0x20000) / 64; let k := off % 64 / 8
    if k = 0 then
      let s := storeRwl off ((2 ^ 18 - 1) * 2 ^ 46) w s
      if bit w 0 then tenantBindOp t s else tenantUnbindOp t s
    else if k = 1 then storeRwl off (0xFF + 7 * 2 ^ 49) w s
    else if k = 2 then storeRwl off (2 ^ 64 - 1) w s
    else if k = 3 then storeRwl off (2 ^ 48 - 1) w s
    else s
  else if off < 0x30000 + 0x10 * 1024 then storeRwl off (2 ^ 64 - 1) w s
  else s

/-- Writable bits of an RWL word of a Carriageway's window. -/
def cwyMask (o : Nat) : Nat :=
  if o = 0x20 then 0x7FF + 0xF * 2 ^ 16 + 0xFF * 2 ^ 24
  else if o = 0x30 ∨ o = 0x38 then 2 ^ 39 - 1
  else if o = 0x40 then 2 ^ 54 - 1
  else if o = 0x48 then 0x3FFFF + 0xFFFF * 2 ^ 32 + 0xF * 2 ^ 48 + 0x1F * 2 ^ 56
  else if o = 0x50 then 0x3F + 0x7FF * 2 ^ 16 + 0x7FF * 2 ^ 32 + 0x7FF * 2 ^ 48
  else if o = 0x80 then 2 ^ 23 - 1
  else 0

/-- CWY_ block. -/
def writeCwy (p : Path) (off w : Nat) (s : State) : State :=
  let c := (off - 0x40000) / 0x400; let o := off % 0x400
  if 64 ≤ c then s
  else if o = 0 then
    (if bit w 1 then cwyResumeOp p c (bit w 0) s else if bit w 0 then cwyEnableOp p c s else cwyDisableOp p c s)
  else if 0x100 ≤ o ∧ o < 0x180 then grantWriteOp p c ((o - 0x100) / 8) (BitVec.ofNat 64 w) s
  else if o = 0x20 ∨ o = 0x30 ∨ o = 0x38 then
    report p (.lifecycle c) 0 0 (storeRwl off (cwyMask o) w s)
  else if (0x40 ≤ o ∧ o < 0x60) ∨ o = 0x80 then
    reportPlain p (.lifecycle c) (storeRwl off (cwyMask o) w s)
  else s

/-- PIER_ block: PIER_REFRESH_CFG.  The base that ends is kept while R71 can still ask for it. -/
def writePier (off w : Nat) (s : State) : State :=
  if off != 0x66000 then s
  else
    let now := s.pw.refTicks
    let s := { s with baseHist := (now, fld (s.word 0x66000) 0 8) :: s.baseHist.filter (fun e => decide (now < e.1 + 12800000)) }
    updateBands (s.setWord off (pack [(8, 8, clampN (fld w 8 8) 60 85), (0, 8, clampN (fld w 0 8) 16 64)]))

/-- RAS_ block. -/
def writeRas (p : Path) (off w : Nat) (s : State) : State :=
  if off = 0x80000 then winCfgOp p (BitVec.ofNat 64 w) s
  else if off = 0x80030 then
    let t := if bit w 16 && s.inspf 16 1 == 0 then s.modRas (fun r => { r with inspFrom := serviceBeat s }) else s
    noteHot (s.thm.past.map (·.1)) s (t.setWord off (pack [(32, 8, clampN (fld w 32 8) 1 20), (20, 6, clampN (fld w 20 6) 24 32), (16, 1, fld w 16 1), (8, 8, min 8 (fld w 8 8))]))
  else if off = 0x80040 then fenceClearOp p (BitVec.ofNat 64 w) s
  else s

/-- PWR_VR_CFG as its card stores a written word. -/
def vrStored (w : Nat) : Nat :=
  let trip := clampN (fld w 0 8) 20 100
  pack [(32, 28, fld w 32 28), (24, 8, max 1 (fld w 24 8)), (16, 8, min 50 (fld w 16 8)), (8, 8, min (trip - 5) (fld w 8 8)), (0, 8, trip)]

/-- PWR_ block. -/
def writePwr (p : Path) (off w : Nat) (s : State) : State :=
  if off = 0xA0010 then jobFreqOp p (w % 64) s
  else if off = 0xA0030 then pwrCapOp p (BitVec.ofNat 64 w) s
  else if off = 0xA0040 then reportPlain p .power (writePoints s (s.setWord off (vrStored w)))
  else s

/-- THM_CFG as its card stores a written word. -/
def thmStored (w : Nat) : Nat :=
  let warn := clampN (fld w 0 8) 60 105
  let act := max (fld w 8 8) (warn + 2)
  let rw := clampN (fld w 24 8) 1 40
  pack [(40, 8, clampN (fld w 40 8) 5 200), (32, 8, max (fld w 32 8) rw), (24, 8, rw), (16, 8, max (fld w 16 8) (act + 2)), (8, 8, act), (0, 8, warn)]

/-- CAL_CFG as its card stores a written word: for stale_c the card gives one storing rule, that of values below delta_t (R421). -/
def calStored (w : Nat) : Nat :=
  let dt := clampN (fld w 8 8) 1 16
  pack [(40, 8, fld w 40 8), (32, 8, clampN (fld w 32 8) 26 36), (16, 8, max dt (fld w 16 8)), (8, 8, dt), (0, 1, w)]

/-- LNK_PORT_CTRL written whole: a refused map leaves every field of the write unstored. -/
def portCtlNow (p : Path) (port w : Nat) (s : State) : State :=
  let code := s.mapCode port (fld w 0 3)
  if code != 0 then report p .link 5 code s
  else
    let s := if fld w 0 3 = s.portMap port then s else setMap port (fld w 0 3) s
    let s := s.setWord (portCtlOff port) (putFld (s.word (portCtlOff port)) 16 16 (fld w 16 16))
    let s := if bit w 6 = s.portOff port then s else setDisable port (bit w 6) s
    report p .link 0 0 (s.when (bit w 7) (startTraining port))

/-- LNK_ block.  The lock of a word of LNK_JOB or LNK_CLOSE is the one that the write found as it arrived (R414, R442). -/
def writeLnk (p : Path) (off w : Nat) (s : State) : State :=
  let it : Instr := .registerWrite p off 8 (BitVec.ofNat 64 w)
  if off = 0xD0000 then lnkTorusOp p (BitVec.ofNat 64 w) s
  else if 0xD0100 ≤ off ∧ off < 0xD01C0 ∧ off % 32 = 0 then orderly it (portCtlNow p ((off - 0xD0100) / 32) w) s
  else if 0xD0200 ≤ off ∧ off < 0xD0230 then lnkThruOp p ((off - 0xD0200) / 8) (BitVec.ofNat 64 w) s
  else if 0xD1000 ≤ off ∧ off < 0xD1800 ∧ off % 32 = 0 then
    orderly it (fun s => report p .link 0 0 (storeRwl off (2 ^ 64 - 1) w s)) s
  else if 0xD2000 ≤ off ∧ off < 0xD2800 ∧ off % 32 < 24 then
    orderly it (fun s => report p .link 0 0 (storeRwl off (0xF0FFFFFF * (2 ^ 32 + 1)) w s)) s
  else s

/-- Both balls are heard and driven again (R403). -/
def clearIso (s : State) : State := s.modChain (fun x => { x with isoDin := false, isoDout := false })

/-- Recovery commands 1 to 4 by number (MGT_REC_CTRL); command 5 is `reinitWrite`. -/
def recCommand (w : Nat) (s : State) : State :=
  match fld w 56 8 with
  | 1 => recBeginOp (fld w 0 32) s
  | 2 => recChunkOp (fld w 32 16) (fld w 0 32) s
  | 3 => recFinishOp s
  | 4 => recAbortOp s
  | _ => s

/-- MGT_ block: available before READY (R386).  MGT_WDOG.restart is the row HOUSEKEEPER_RESTART. -/
def writeMgt (off w : Nat) (s : State) : State :=
  if off = 0xF0010 then s.setWord off (pack [(32, 16, clampN (fld w 32 16) 10 10000), (2, 11, fld w 2 11)])
  else if off = 0xF0020 then s.when (bit w 16) clearIso
  else if off = 0xF0100 then recCommand w s
  else if off = 0xF0200 then
    (let s := s.setWord off (fld w 56 8 * 2 ^ 56); s.when (bit w 0) (commitSvnOp (fld w 56 8)))
  else s

/-- One 64-bit word written (R411, R413, R421). -/
def writeWord (p : Path) (off w : Nat) (s : State) : State :=
  if off < 0x10000 then s
  else if off < 0x20000 then writeHost off w s
  else if 0xF0000 ≤ off ∧ off < 0xF8000 then writeMgt off w s
  else if !s.inService then s
  else if off < 0x40000 then writeTen off w s
  else if off < 0x60000 then writeCwy p off w s
  else if off < 0x80000 then writePier off w s
  else if off < 0xA0000 then writeRas p off w s
  else if off < 0xB0000 then writePwr p off w s
  else if off < 0xC0000 then (if off = 0xB0000 then s.setWord off (thmStored w) else s)
  else if off < 0xD0000 then (if off = 0xC0000 then noteAcc (noteCurrent ((noteAcc s).setWord off (calStored w))) else s)
  else if off < 0xE0000 then writeLnk p off w s
  else s

/-- Offsets whose card is 32 bits wide: the upper half of their word is reserved. -/
def narrow (off : Nat) : Bool :=
  off == 0x66000 || off == 0x80040 || off == 0xA0010 || off == 0xF0020 || (decide (0x40000 ≤ off ∧ off < 0x50000) && off % 0x400 == 0)

/-- A 4-byte write merged with the current value of the other half (R413). -/
def mergeHalf (s : State) (off v : Nat) : Nat :=
  let base := off / 8 * 8
  if off % 8 = 4 then fld (s.regWord base) 0 32 + v % 2 ^ 32 * 2 ^ 32 else v % 2 ^ 32 + fld (s.regWord base) 32 32 * 2 ^ 32

/-- Blocks that take a fleet write (Table 17.1, R406). -/
def fleetTakes (off : Nat) : Bool :=
  decide (0x40000 ≤ off ∧ off < 0x60000) || decide (0x80000 ≤ off ∧ off < 0xE0000) || decide (0xF0000 ≤ off ∧ off < 0xF8000)

/-- The word that a write of 4 or 8 bytes reaches; none where it has no effect: another size, no natural alignment, or the
reserved half of a 32-bit card (R412). -/
def accessWord (off size : Nat) : Option Nat :=
  if size = 8 ∧ off % 8 = 0 then some off
  else if size = 4 ∧ off % 4 = 0 ∧ ¬(off % 8 = 4 ∧ narrow (off - 4) = true) then some (off / 8 * 8)
  else none

/-- A word of the block of a Carriageway. -/
def State.ownCheck (s : State) (off : Nat) : Bool := decide (0x40000 ≤ off ∧ off < 0x50000) && s.checked == some ((off - 0x40000) / 0x400)

/-- A running check holds a write of this word (R442). -/
def State.holdsWord (s : State) (off : Nat) : Bool :=
  s.inService && s.holding && !s.ownCheck off &&
  (if 0x40000 ≤ off ∧ off < 0x50000 then off % 0x400 == 0 || decide (0x100 ≤ off % 0x400 ∧ off % 0x400 < 0x180)
   else off == 0xA0010 || off == 0xA0030 || off == 0xD0000 || (decide (0xD0100 ≤ off ∧ off < 0xD01C0) && off % 32 == 0) ||
    decide (0xD0200 ≤ off ∧ off < 0xD0230) || decide (0xD1000 ≤ off ∧ off < 0xD1800 ∧ off % 32 = 0) ||
    decide (0xD2000 ≤ off ∧ off < 0xD2800 ∧ off % 32 < 24))

/-- A write of a word waits: for a check (R442), or behind earlier accesses of its path (R416).  One to the enable of the
Carriageway whose check runs does not: a 0 abandons the check (R152). -/
def State.accessWaits (s : State) (p : Path) (off : Nat) : Bool :=
  s.holdsWord off || (s.waitsBehind p && !(s.ownCheck off && off % 0x400 == 0))

/-- A register access of 4 or 8 bytes, naturally aligned; any other has no effect (R412).  A 4-byte write is merged as it
executes (R413). -/
def registerOp (p : Path) (off size : Nat) (val : Word) (s : State) : State :=
  if p == .fleet && !fleetTakes off then report p .other 5 0x69 s
  else if 0xF8000 ≤ off ∧ off < 0x100000 then
    (if size = 4 ∨ size = 8 then recBufferOp (off - 0xF8000) (leBytes size val.toNat) s else s)
  else match accessWord off size with
    | none => s
    | some w =>
      if s.accessWaits p w then hold (.registerWrite p off size val) s
      else if compBase ≤ off then
        (if size = 4 then compWrite (off - compBase) (val.toNat % 2 ^ 32) s
         else compWrite (off - compBase + 4) (val.toNat / 2 ^ 32) (compWrite (off - compBase) (val.toNat % 2 ^ 32) s))
      else writeWord p w (if size = 8 then val.toNat else mergeHalf s off val.toNat) s

/-- A host write of command 5 to MGT_REC_CTRL, whole or by its upper half: REC_REINIT_LEDGER (R398). -/
def reinitWrite (p : Path) (off size : Nat) (val : Word) : Bool :=
  p == .host && ((off == 0xF0100 && size == 8 && fld val.toNat 56 8 == 5) || (off == 0xF0104 && size == 4 && fld val.toNat 24 8 == 5))

/-- REGISTER_WRITE (R412 to R417, R421). -/
def execRegisterWrite (p : Path) (off size : Nat) (val : Word) (s : State) : Host.Outcome State Fault Refusal :=
  if reinitWrite p off size val then goNv s recReinitOp else goMem s (registerOp p off size val)

end Sys2Proof.Machine
end

