-- ==== Sys2Proof/Machine/Trestle.lean ====
section
/-! DEFINITION. The Trestle chain, job keys, and the end of a check with the orders that it held (R132, R157,
R341, R399 to R408, R442). -/

namespace Sys2Proof.Machine

/-! ### Frames (R400, R401, R403, R406) -/

/-- A ball is isolated: neither driven nor heard (R403). -/
def State.isolated (s : State) (ball : Nat) : Bool := if ball = 0 then s.chain.isoDin else s.chain.isoDout

/-- A received frame is whole: its length agrees with its byte count and its CRC-32C holds (R400). -/
def wholeFrame (f : THead) (typ : Nat) (payload : Bytes) : Bool :=
  decide (f.len.toNat = payload.length ∧ f.crc.toNat = crc32c (trestleHead f.dst f.src typ f.seq payload.length ++ payload))

/-- The device acts on a frame: heard, whole, and addressed to it or to every device (R400, R406), by a Housekeeper that
runs (R396). -/
def State.acts (s : State) (f : THead) (typ : Nat) (payload : Bytes) : Bool :=
  !s.mgt.hkStopped && wholeFrame f typ payload && !s.isolated f.ball && (f.dst == 0xFF || s.chain.addr == some f.dst)

/-- Frame bytes go on through the other ball, unless either ball is isolated (R401, R403) or the frame came while the
device drove its ball or forwarded the other way (R401). -/
def relay (f : THead) (frame : Bytes) (s : State) : State :=
  let out := if f.ball = 0 then 1 else 0
  if f.clash || s.isolated f.ball || s.isolated out then s else emit (.trestle out (trestleBits frame)) s

/-- A frame is forwarded as it came, its length and CRC fields with it. -/
def forward (f : THead) (typ : Nat) (payload : Bytes) : State → State :=
  relay f (trestleHead f.dst f.src typ f.seq f.len.toNat ++ payload ++ leBytes 4 f.crc.toNat)

/-- A frame is forwarded and, where the device acts on it, has its effect. -/
def onFrame (f : THead) (typ : Nat) (payload : Bytes) (act : State → State) (s : State) : State :=
  let s' := forward f typ payload s
  if s.acts f typ payload then act s' else s'

/-- Frames that the device acts on in service only (R406). -/
def served (act : State → State) (s : State) : State := if s.inService then act s else s

/-! ### ENUMERATE (R404) -/

/-- The address that an ENUMERATE leaves, and the next that it forwards. -/
def enumResult (addr : Option Nat) (next : Nat) (restart : Bool) : Option Nat × Nat :=
  let a := if restart then none else addr
  if a.isNone ∧ next ≤ 63 then (some next, next + 1) else (a, next)

def enumerateOp (f : THead) (next : Nat) (restart : Bool) (s : State) : State :=
  let pay := fun n => leBytes 1 n ++ leBytes 1 (b2n restart)
  if s.acts f 0x01 (pay next) then
    let r := enumResult s.chain.addr next restart
    relay f (trestleFrame f.dst f.src 0x01 f.seq (pay r.2)) (s.modChain (fun x => { x with addr := r.1, reversed := x.reversed || f.ball == 1 }))
  else forward f 0x01 (pay next) s

/-- ENUMERATE (R404): no response. -/
def execEnumerate (f : THead) (next : Nat) (restart : Bool) (s : State) : Host.Outcome State Fault Refusal := go s (enumerateOp f next restart)

/-! ### IDENT, REG_READ, ALERT, SPDM, RESPONSE -/

def identOp (f : THead) : State → State := onFrame f 0x02 [] (fun s =>
  trestleRespond f 0 0 (deviceTag ++ leBytes 1 s.mgt.stage ++ zeros 3 ++ leBytes 4 s.ledger.boot) s)

/-- IDENT (R406, Table 16.5). -/
def execIdent (f : THead) (s : State) : Host.Outcome State Fault Refusal := go s (identOp f)

/-- An access of the fleet still waits for its outcome: the running check is its own, or a held order is (R416). -/
def State.fleetPends (s : State) : Bool :=
  s.chain.check.any (fun k => k.path == .fleet) || s.chain.held.any (fun h => orderPath h.instr == .fleet)

/-- The answer of a read, which waits behind the earlier orders of its path but takes no slot of the serialiser (R416). -/
def fleetAnswer (f : THead) (off words : Nat) (s : State) : State :=
  if s.fleetPends then
    s.modChain (fun x => { x with held := x.held ++ [{ slot := x.lastFleet, instr := .regRead f off words }] })
  else if words < 1 ∨ 16 < words then trestleRespond f 5 0x61 [] s
  else if off % 8 ≠ 0 then trestleRespond f 0 0 (zeros (8 * words)) s
  else
    let r := regReads .fleet words off s
    trestleRespond f 0 0 (r.1.flatMap (leBytes 8)) r.2

def regReadOp (f : THead) (off words : Nat) : State → State :=
  onFrame f 0x10 (leBytes 4 off ++ leBytes 1 words) (served (fleetAnswer f off words))

/-- REG_READ (R415, R416, R418). -/
def execRegRead (f : THead) (off words : Nat) (s : State) : Host.Outcome State Fault Refusal := go s (regReadOp f off words)

def alertOp (f : THead) (clear : Bool) : State → State :=
  onFrame f 0x21 (leBytes 1 (b2n clear)) (fun s =>
    let bits := s.alertBits
    trestleRespond f 0 0 (leBytes 4 bits) (if clear then s.modChain (fun x => { x with alertLatch := 0 }) else s))

/-- ALERT (R408): bits 0, 3 and 4 are the latched ones. -/
def execAlert (f : THead) (clear : Bool) (s : State) : Host.Outcome State Fault Refusal := go s (alertOp f clear)

def spdmFrameOp (f : THead) (m : Bytes) : State → State :=
  onFrame f 0x30 m (served (fun s => let r := spdmReply .trestle m s; trestleRespond f 0 0 r.1 r.2))

/-- SPDM (R410). -/
def execSpdm (f : THead) (msg : List Byte) (s : State) : Host.Outcome State Fault Refusal := go s (spdmFrameOp f msg)

def responseOp (f : THead) (payload : Bytes) : State → State := forward f 0x03 payload

/-- RESPONSE (R401): forwarded. -/
def execResponse (f : THead) (payload : List Byte) (s : State) : Host.Outcome State Fault Refusal := go s (responseOp f payload)

def reservedTrestleOp (f : THead) (typ : Nat) (payload : Bytes) : State → State := forward f typ payload

/-- RESERVED_TRESTLE_FRAME (R401, Table 16.5): forwarded, no response. -/
def execReservedTrestleFrame (f : THead) (typ : Nat) (payload : List Byte) (s : State) : Host.Outcome State Fault Refusal :=
  go s (reservedTrestleOp f typ payload)

/-! ### Balls (R403) -/

/-- A ball is isolated until PERST_N or clr_iso, and its count of contentions starts afresh. -/
def isolate (ball : Nat) (s : State) : State :=
  s.modChain (fun x =>
    let x := { x with contended := x.contended.filter (fun e => e.1 != ball) }
    if ball = 0 then { x with isoDin := true } else if ball = 1 then { x with isoDout := true } else x)

/-- The contentions of both balls in the last 1 s, counted on the reference counter. -/
def State.contentions (s : State) : List (Nat × Nat) := s.chain.contended.filter (fun e => decide (s.pw.refTicks ≤ e.2 + 100000000))

/-- Two consecutive opposite periods stop the driving of the frame; the third such frame within 1 s isolates the ball. -/
def contentionOp (ball periods : Nat) (s : State) : State :=
  if periods < 2 ∨ s.isolated ball = true then s
  else
    let l := (ball, s.pw.refTicks) :: s.contentions
    let s := emit (.ballOff ball) (s.modChain (fun x => { x with contended := l }))
    s.when (decide (3 ≤ (l.filter (fun e => e.1 == ball)).length)) (isolate ball)

/-- BALL_CONTENTION (R403). -/
def execBallContention (ball periods : Nat) (s : State) : Host.Outcome State Fault Refusal := go s (contentionOp ball periods)

/-- BALL_STUCK_LOW (R403). -/
def execBallStuckLow (ball : Nat) (s : State) : Host.Outcome State Fault Refusal := go s (isolate ball)

/-- CLR_ISO (R403): the same from either path. -/
def execClrIso (p : Path) (s : State) : Host.Outcome State Fault Refusal := go s (inTurn (.clrIso p) clearIso)

/-! ### JOB_KEY (R341, R343) -/

/-- The job key that an envelope gives, none when it does not open. -/
def jobKeyOf (env : Bytes) : Option Bytes :=
  if allZero (slice env 1586 14) && allZero (slice env 1648 16) then
    openEnvelope env (slice env 1568 16 ++ slice env 1584 2 ++ shake 16 idKey)
  else none

/-- Frame counters start at 0 with the key. -/
def setJobKey (c : Nat) (k : Option Bytes) (s : State) : State :=
  s.modJk c (fun x => match k with
    | some b => { state := 1, key := b }
    | none => { x with state := 2 })

def jobKeyOp (f : THead) (c : Nat) (env : Bytes) : State → State :=
  onFrame f 0x20 (leBytes 1 c ++ zeros 15 ++ slice env 0 1664) (served (fun s =>
    if 64 ≤ c then trestleRespond f 5 0x61 [] s
    else
      let s := setJobKey c (jobKeyOf env) s
      trestleRespond f 0 0 (leBytes 1 (s.cwy c).jk.state) s))

/-- JOB_KEY (R341). -/
def execJobKey (f : THead) (c : Nat) (env : List Byte) (s : State) : Host.Outcome State Fault Refusal := go s (jobKeyOp f c env)

/-! ### REG_WRITE (R406, R407, R417, R442) -/

/-- The block of an offset by its first offset (Table 17.1). -/
def blockOf (off : Nat) : Nat :=
  [0x10000, 0x20000, 0x40000, 0x60000, 0x80000, 0xA0000, 0xB0000, 0xC0000, 0xD0000, 0xE0000, 0xF0000, 0xF8000, 0x100000, 0xFF0000, 0x1000000].foldl
    (fun a b => if b ≤ off then b else a) 0

/-- The words of an accepted frame, one order in one slot, and its response unless a check that it started will give it.  A
word is locked if the frame found it so as it arrived, or if an earlier word of the frame has set its enable (R414, R417). -/
def applyFrame (f : THead) (off : Nat) (words : List Word) (s : State) : State :=
  let n := s.serSlot .fleet
  let i : Instr := .regWrite f off words
  let slot := s.chain.slot
  let lock := s.chain.locked
  let arrived := if slot.isSome then lock else s.lockedOf i
  let before := s.lockedOf i
  let s := (takeSlot .fleet n s).modChain (fun x => { x with slot := some n })
  let s := s.modMgt (fun m => { m with fleetReply := some f, fleetRes := none })
  let s := foldS ((frameOffs off words.length).zip words) (fun s e =>
    if e.1 % 8 != 0 then s
    else
      let set := s.rwlLocked e.1 && !before.contains e.1
      writeWord .fleet e.1 e.2.toNat (s.modChain (fun x => { x with locked := if set then e.1 :: arrived else arrived }))) s
  let res := s.mgt.fleetRes
  let waits := s.mgt.fleetReply.isNone
  let s := (s.modMgt (fun m => { m with fleetReply := none, fleetRes := none })).modChain (fun x => { x with slot := slot, locked := lock })
  if waits then s
  else match res with
    | some r => trestleRespond f 5 r [] s
    | none => trestleRespond f 0 0 [] s

/-- A fleet order: judged by block, held while a check runs or behind earlier ones, else applied (R416, R442). -/
def fleetOrder (f : THead) (off : Nat) (words : List Word) (s : State) : State :=
  let n := words.length
  if n < 1 ∨ 16 < n ∨ blockOf off ≠ blockOf (off + 8 * n - 1) then trestleRespond f 5 0x61 [] s
  else if !fleetTakes off then trestleRespond f 5 0x69 [] s
  else if (frameOffs off n).any (s.accessWaits .fleet) then hold (.regWrite f off words) s
  else applyFrame f off words s

def regWriteOp (f : THead) (off : Nat) (words : List Word) : State → State :=
  onFrame f 0x11 (leBytes 4 off ++ leBytes 1 words.length ++ zeros 3 ++ words.flatMap (fun w => leBytes 8 w.toNat)) (served (fleetOrder f off words))

/-- REG_WRITE (R406, R417). -/
def execRegWrite (f : THead) (off : Nat) (words : List Word) (s : State) : Host.Outcome State Fault Refusal := goMem s (regWriteOp f off words)

/-! ### The end of a check (R132, R157, R442) -/

/-- A held order executes. -/
def runHeld (i : Instr) (s : State) : State :=
  match i with
  | .cwyEnable p c => cwyEnableOp p c s
  | .cwyDisable p c => cwyDisableOp p c s
  | .cwyResume p c en => cwyResumeOp p c en s
  | .grantWrite p c k w => grantWriteOp p c k w s
  | .jobFreqWrite p n => jobFreqOp p n s
  | .pwrCapWrite p w => pwrCapOp p w s
  | .lnkTorusWrite p w => lnkTorusOp p w s
  | .portMapWrite p port d => portMapOp p port d s
  | .lnkThruWrite p q w => lnkThruOp p q w s
  | .registerWrite p off size w => registerOp p off size w s
  | .tenantBind t => tenantBindOp t s
  | .tenantUnbind t => tenantUnbindOp t s
  | .ringEnable r => ringEnableOp r s
  | .ringDisable r => ringDisableOp r s
  | .regWrite f off words => fleetOrder f off words s
  | .regRead f off words => fleetAnswer f off words s
  | .winCfgWrite p w => winCfgOp p w s
  | .fenceClear p w => fenceClearOp p w s
  | .clrIso _ => clearIso s
  | .portDisable p port dis => portDisableOp p port dis s
  | .retrain p port => retrainOp p port s
  | .hdmMapWrite w => hdmMapOp w s
  | .landMapWrite w => landMapOp w s
  | .eventRingEnable => eventEnableOp s
  | .commitSvn cmd => commitSvnOp cmd s
  | _ => s

/-- The held orders execute in arrival order, each on the state that the one before it left; those that a new
check holds again keep their order (R442). -/
def drainHeld (s : State) : State :=
  let hs := s.chain.held
  (foldS hs (fun s e => runHeld e.instr (s.modChain (fun x => { x with slot := some e.slot, locked := e.locked })))
    (s.modChain (fun x => { x with held := [] }))).modChain (fun x => { x with slot := none, locked := [] })

/-- The enable or resume check completes; after an abandoned one only the held orders execute. -/
def checkDoneOp (s : State) : State :=
  match s.chain.check with
  | none => drainHeld s
  | some k =>
    match k.kind with
    | .enable c => drainHeld (finishCheck c false k (s.modChain (fun x => { x with check := none })))
    | .resume c => drainHeld (finishCheck c true k (s.modChain (fun x => { x with check := none })))
    | .bind _ => s

/-- CONSISTENCY_CHECK_DONE (R132). -/
def execConsistencyCheckDone (s : State) : Host.Outcome State Fault Refusal := goMem s checkDoneOp

def bindDoneOp (s : State) : State :=
  match s.chain.check with
  | none => s
  | some k =>
    match k.kind with
    | .bind t => drainHeld (finishBind t k (s.modChain (fun x => { x with check := none })))
    | _ => s

/-- BINDING_CHECK_DONE (R157). -/
def execBindingCheckDone (s : State) : Host.Outcome State Fault Refusal := goMem s bindDoneOp

end Sys2Proof.Machine
end

