-- ==== Sys2Proof/Machine/Dispatch.lean ====
section
/-! DEFINITION. One arm per command of spec/opcode_table.json: the meaning it calls. -/

namespace Sys2Proof.Machine

/-- The effect of a command on the state, its queue aside. -/
def exec (i : Instr) (s : State) : Host.Outcome State Fault Refusal :=
  match i with
  | .perstNDeassert => Sys2Proof.Machine.execPerstNDeassert s
  | .perstNAssert => Sys2Proof.Machine.execPerstNAssert s
  | .configRequest q => Sys2Proof.Machine.execConfigRequest q s
  | .stageRom hdr => Sys2Proof.Machine.execStageRom hdr s
  | .stageVerify code => Sys2Proof.Machine.execStageVerify code s
  | .stageDies pllFail linkFail => Sys2Proof.Machine.execStageDies pllFail linkFail s
  | .stageHbm failRows spareRows => Sys2Proof.Machine.execStageHbm failRows spareRows s
  | .stageLedger recs => Sys2Proof.Machine.execStageLedger recs s
  | .stageMargin res => Sys2Proof.Machine.execStageMargin res s
  | .stageCal => Sys2Proof.Machine.execStageCal s
  | .recBufferWrite off data => Sys2Proof.Machine.execRecBufferWrite off data s
  | .recBegin len => Sys2Proof.Machine.execRecBegin len s
  | .recChunk chunk count => Sys2Proof.Machine.execRecChunk chunk count s
  | .recFinish => Sys2Proof.Machine.execRecFinish s
  | .recAbort => Sys2Proof.Machine.execRecAbort s
  | .recReinitLedger => Sys2Proof.Machine.execRecReinitLedger s
  | .recoveryProgramDone programmed readBack => Sys2Proof.Machine.execRecoveryProgramDone programmed readBack s
  | .commitSvn cmd => Sys2Proof.Machine.execCommitSvn cmd s
  | .commitSvnDone => Sys2Proof.Machine.execCommitSvnDone s
  | .watchdogExpiry => Sys2Proof.Machine.execWatchdogExpiry s
  | .hkUncorrectableError => Sys2Proof.Machine.execHkUncorrectableError s
  | .housekeeperRestart p hdr code => Sys2Proof.Machine.execHousekeeperRestart p hdr code s
  | .watchdogService => Sys2Proof.Machine.execWatchdogService s
  | .registerWrite p off size val => Sys2Proof.Machine.execRegisterWrite p off size val s
  | .pllLockLoss d => Sys2Proof.Machine.execPllLockLoss d s
  | .jobFreqWrite p n => Sys2Proof.Machine.execJobFreqWrite p n s
  | .slewComplete => Sys2Proof.Machine.execSlewComplete s
  | .idleGlideStep => Sys2Proof.Machine.execIdleGlideStep s
  | .droopTrip d => Sys2Proof.Machine.execDroopTrip d s
  | .droopClear => Sys2Proof.Machine.execDroopClear s
  | .slewResume => Sys2Proof.Machine.execSlewResume s
  | .vrAlertAssert status => Sys2Proof.Machine.execVrAlertAssert status s
  | .vrAlertDeassert => Sys2Proof.Machine.execVrAlertDeassert s
  | .floorRelease => Sys2Proof.Machine.execFloorRelease s
  | .marginSearch res => Sys2Proof.Machine.execMarginSearch res s
  | .powerSample mv => Sys2Proof.Machine.execPowerSample mv s
  | .energySplit acts => Sys2Proof.Machine.execEnergySplit acts s
  | .capLoop => Sys2Proof.Machine.execCapLoop s
  | .pwrCapWrite p w => Sys2Proof.Machine.execPwrCapWrite p w s
  | .hintBoostStart n => Sys2Proof.Machine.execHintBoostStart n s
  | .hintWindowEnd n => Sys2Proof.Machine.execHintWindowEnd n s
  | .thermalModelStep => Sys2Proof.Machine.execThermalModelStep s
  | .diodeRead vals => Sys2Proof.Machine.execDiodeRead vals s
  | .thermalCompare => Sys2Proof.Machine.execThermalCompare s
  | .shutdownComplete n => Sys2Proof.Machine.execShutdownComplete n s
  | .thermtrip d => Sys2Proof.Machine.execThermtrip d s
  | .beat op bay mask slot rec stride => Sys2Proof.Machine.execBeat op bay mask slot rec stride s
  | .conversionSlot span bay phys m raw faulty => Sys2Proof.Machine.execConversionSlot span bay phys m raw faulty s
  | .beatVerdict span bay phys residue => Sys2Proof.Machine.execBeatVerdict span bay phys residue s
  | .slotApply span bay t mismatch => Sys2Proof.Machine.execSlotApply span bay t mismatch s
  | .ballast op bay mask => Sys2Proof.Machine.execBallast op bay mask s
  | .wseg op bay pier slot rec residue => Sys2Proof.Machine.execWseg op bay pier slot rec residue s
  | .slotClear op bay slot => Sys2Proof.Machine.execSlotClear op bay slot s
  | .slotDrain op bay slot off => Sys2Proof.Machine.execSlotDrain op bay slot off s
  | .slotSend op bay slot dst crc => Sys2Proof.Machine.execSlotSend op bay slot dst crc s
  | .combine op bay slot => Sys2Proof.Machine.execCombine op bay slot s
  | .partialSumFlitArrival span bay t f => Sys2Proof.Machine.execPartialSumFlitArrival span bay t f s
  | .girder op g routine arg0 arg1 k fixed fail => Sys2Proof.Machine.execGirder op g routine arg0 arg1 k fixed fail s
  | .vfmaBf16 g u => Sys2Proof.Machine.execVfmaBf16 g u s
  | .vfmaF32 g u => Sys2Proof.Machine.execVfmaF32 g u s
  | .vdotI8 g serves u => Sys2Proof.Machine.execVdotI8 g serves u s
  | .valu g f u => Sys2Proof.Machine.execValu g f u s
  | .vmax g fmt u => Sys2Proof.Machine.execVmax g fmt u s
  | .vex2 g u => Sys2Proof.Machine.execVex2 g u s
  | .vrcp g u => Sys2Proof.Machine.execVrcp g u s
  | .vrsq g u => Sys2Proof.Machine.execVrsq g u s
  | .vreq g r u => Sys2Proof.Machine.execVreq g r u s
  | .vtopk g fmt k fresh slot u => Sys2Proof.Machine.execVtopk g fmt k fresh slot u s
  | .vld g off t => Sys2Proof.Machine.execVld g off t s
  | .vst g off t => Sys2Proof.Machine.execVst g off t s
  | .vrld g grp off t => Sys2Proof.Machine.execVrld g grp off t s
  | .salu g f u => Sys2Proof.Machine.execSalu g f u s
  | .smul g u => Sys2Proof.Machine.execSmul g u s
  | .loop g words times => Sys2Proof.Machine.execLoop g words times s
  | .endRoutine span girder t => Sys2Proof.Machine.execEndRoutine span girder t s
  | .move op src dst flits crc => Sys2Proof.Machine.execMove op src dst flits crc s
  | .hbmRd op hoff laddr flits ecc crc => Sys2Proof.Machine.execHbmRd op hoff laddr flits ecc crc s
  | .hbmWr op hoff laddr flits crc => Sys2Proof.Machine.execHbmWr op hoff laddr flits crc s
  | .kvRd op aslot page pages head laddr ecc crc => Sys2Proof.Machine.execKvRd op aslot page pages head laddr ecc crc s
  | .kvStage op aslot tok head laddr crc => Sys2Proof.Machine.execKvStage op aslot tok head laddr crc s
  | .plSend op dir dmember rxbuf tag saddr flits => Sys2Proof.Machine.execPlSend op dir dmember rxbuf tag saddr flits s
  | .wait op arrivals => Sys2Proof.Machine.execWait op arrivals s
  | .waitRelease c => Sys2Proof.Machine.execWaitRelease c s
  | .waitLimitExpiry c dir => Sys2Proof.Machine.execWaitLimitExpiry c dir s
  | .streamDrainDone c => Sys2Proof.Machine.execStreamDrainDone c s
  | .streamFetch c die block fail => Sys2Proof.Machine.execStreamFetch c die block fail s
  | .keystone op sel => Sys2Proof.Machine.execKeystone op sel s
  | .voteFrameArrival c child f => Sys2Proof.Machine.execVoteFrameArrival c child f s
  | .releaseFrameArrival c f acts => Sys2Proof.Machine.execReleaseFrameArrival c f acts s
  | .bodyStart c t => Sys2Proof.Machine.execBodyStart c t s
  | .keystoneTimeout c => Sys2Proof.Machine.execKeystoneTimeout c s
  | .idleKeystone c => Sys2Proof.Machine.execIdleKeystone c s
  | .takeoverKeystone c => Sys2Proof.Machine.execTakeoverKeystone c s
  | .holdDone c readBackFail => Sys2Proof.Machine.execHoldDone c readBackFail s
  | .jobStart c others => Sys2Proof.Machine.execJobStart c others s
  | .ballastTimer c t => Sys2Proof.Machine.execBallastTimer c t s
  | .rampWindow c t => Sys2Proof.Machine.execRampWindow c t s
  | .cwyEnable p c => Sys2Proof.Machine.execCwyEnable p c s
  | .cwyDisable p c => Sys2Proof.Machine.execCwyDisable p c s
  | .cwyResume p c en => Sys2Proof.Machine.execCwyResume p c en s
  | .consistencyCheckDone => Sys2Proof.Machine.execConsistencyCheckDone s
  | .grantWrite p c k w => Sys2Proof.Machine.execGrantWrite p c k w s
  | .tenantBind t => Sys2Proof.Machine.execTenantBind t s
  | .bindingCheckDone => Sys2Proof.Machine.execBindingCheckDone s
  | .tenantUnbind t => Sys2Proof.Machine.execTenantUnbind t s
  | .doorbellSnoop r sqTail cqHead => Sys2Proof.Machine.execDoorbellSnoop r sqTail cqHead s
  | .doorbellPoll r sqTail cqHead => Sys2Proof.Machine.execDoorbellPoll r sqTail cqHead s
  | .doorbellModeChange lines => Sys2Proof.Machine.execDoorbellModeChange lines s
  | .descriptorReadComplete r descs => Sys2Proof.Machine.execDescriptorReadComplete r descs s
  | .submit r => Sys2Proof.Machine.execSubmit r s
  | .cancel r => Sys2Proof.Machine.execCancel r s
  | .pause r => Sys2Proof.Machine.execPause r s
  | .resume r => Sys2Proof.Machine.execResume r s
  | .query r => Sys2Proof.Machine.execQuery r s
  | .fetchCert r => Sys2Proof.Machine.execFetchCert r s
  | .loadWeights r => Sys2Proof.Machine.execLoadWeights r s
  | .loadWeightsKeyEnvelope r => Sys2Proof.Machine.execLoadWeightsKeyEnvelope r s
  | .replaceLayer r => Sys2Proof.Machine.execReplaceLayer r s
  | .loadSpandrel r => Sys2Proof.Machine.execLoadSpandrel r s
  | .retireSpandrel r => Sys2Proof.Machine.execRetireSpandrel r s
  | .hint r => Sys2Proof.Machine.execHint r s
  | .reservedKind r => Sys2Proof.Machine.execReservedKind r s
  | .promptChunkRead h toks => Sys2Proof.Machine.execPromptChunkRead h toks s
  | .prefixLookupRead h toks => Sys2Proof.Machine.execPrefixLookupRead h toks s
  | .hostAccessFailure a => Sys2Proof.Machine.execHostAccessFailure a s
  | .ringAccessFailure r cause n => Sys2Proof.Machine.execRingAccessFailure r cause n s
  | .ttlLapse h => Sys2Proof.Machine.execTtlLapse h s
  | .copyOutBlockAck h page blk => Sys2Proof.Machine.execCopyOutBlockAck h page blk s
  | .restoreBlockRead h page blk ct => Sys2Proof.Machine.execRestoreBlockRead h page blk ct s
  | .bundleChunk c read => Sys2Proof.Machine.execBundleChunk c read s
  | .bundleLoadDone c => Sys2Proof.Machine.execBundleLoadDone c s
  | .bulkWriteDone span bay phys fin => Sys2Proof.Machine.execBulkWriteDone span bay phys fin s
  | .spandrelPlaced n => Sys2Proof.Machine.execSpandrelPlaced n s
  | .refreshReadDone span bay read => Sys2Proof.Machine.execRefreshReadDone span bay read s
  | .refreshRowWrite span bay phys row => Sys2Proof.Machine.execRefreshRowWrite span bay phys row s
  | .refreshOverdue span bay phys => Sys2Proof.Machine.execRefreshOverdue span bay phys s
  | .vrefSample v => Sys2Proof.Machine.execVrefSample v s
  | .calibrationBeat span bay phys t => Sys2Proof.Machine.execCalibrationBeat span bay phys t s
  | .calPassDone span bay phys sums ver => Sys2Proof.Machine.execCalPassDone span bay phys sums ver s
  | .recoveryActionStart => Sys2Proof.Machine.execRecoveryActionStart s
  | .winCfgWrite p w => Sys2Proof.Machine.execWinCfgWrite p w s
  | .ledgerWrite ok => Sys2Proof.Machine.execLedgerWrite ok s
  | .ledgerCheckpoint ok => Sys2Proof.Machine.execLedgerCheckpoint ok s
  | .ledgerCompaction ok => Sys2Proof.Machine.execLedgerCompaction ok s
  | .inspectionBeat span bay phys t seg codes => Sys2Proof.Machine.execInspectionBeat span bay phys t seg codes s
  | .spareInspection span bay phys run => Sys2Proof.Machine.execSpareInspection span bay phys run s
  | .girderInspection span girder run => Sys2Proof.Machine.execGirderInspection span girder run s
  | .inspectionStarved unit span bay index => Sys2Proof.Machine.execInspectionStarved unit span bay index s
  | .fenceClear p w => Sys2Proof.Machine.execFenceClear p w s
  | .fenceClearDone runs => Sys2Proof.Machine.execFenceClearDone runs s
  | .windowClose => Sys2Proof.Machine.execWindowClose s
  | .windowSigned => Sys2Proof.Machine.execWindowSigned s
  | .signingFailure => Sys2Proof.Machine.execSigningFailure s
  | .eventHeadPoll head => Sys2Proof.Machine.execEventHeadPoll head s
  | .eventRingFailure n => Sys2Proof.Machine.execEventRingFailure n s
  | .eventRingEnable => Sys2Proof.Machine.execEventRingEnable s
  | .msixUnmask v => Sys2Proof.Machine.execMsixUnmask v s
  | .ringEnable r => Sys2Proof.Machine.execRingEnable r s
  | .ringDisable r => Sys2Proof.Machine.execRingDisable r s
  | .ringOff r => Sys2Proof.Machine.execRingOff r s
  | .hdmMapWrite w => Sys2Proof.Machine.execHdmMapWrite w s
  | .landMapWrite w => Sys2Proof.Machine.execLandMapWrite w s
  | .hdmAccess off q => Sys2Proof.Machine.execHdmAccess off q s
  | .bar2Access off q => Sys2Proof.Machine.execBar2Access off q s
  | .atsInvalidation pasid page => Sys2Proof.Machine.execAtsInvalidation pasid page s
  | .cxlLinkLoss => Sys2Proof.Machine.execCxlLinkLoss s
  | .hotReset => Sys2Proof.Machine.execHotReset s
  | .d3hot => Sys2Proof.Machine.execD3hot s
  | .doeDiscovery index => Sys2Proof.Machine.execDoeDiscovery index s
  | .cdatTableAccess entry => Sys2Proof.Machine.execCdatTableAccess entry s
  | .getVersion q => Sys2Proof.Machine.execGetVersion q s
  | .getCapabilities q => Sys2Proof.Machine.execGetCapabilities q s
  | .negotiateAlgorithms p head body => Sys2Proof.Machine.execNegotiateAlgorithms p head body s
  | .getDigests q => Sys2Proof.Machine.execGetDigests q s
  | .getCertificate p head off len => Sys2Proof.Machine.execGetCertificate p head off len s
  | .challenge p head body => Sys2Proof.Machine.execChallenge p head body s
  | .getMeasurements p head nonce body => Sys2Proof.Machine.execGetMeasurements p head nonce body s
  | .spdmUnsupportedRequest p msg => Sys2Proof.Machine.execSpdmUnsupportedRequest p msg s
  | .enumerate f next restart => Sys2Proof.Machine.execEnumerate f next restart s
  | .ident f => Sys2Proof.Machine.execIdent f s
  | .regRead f off words => Sys2Proof.Machine.execRegRead f off words s
  | .regWrite f off words => Sys2Proof.Machine.execRegWrite f off words s
  | .jobKey f c env => Sys2Proof.Machine.execJobKey f c env s
  | .alert f clear => Sys2Proof.Machine.execAlert f clear s
  | .spdm f msg => Sys2Proof.Machine.execSpdm f msg s
  | .response f payload => Sys2Proof.Machine.execResponse f payload s
  | .ballContention ball periods => Sys2Proof.Machine.execBallContention ball periods s
  | .ballStuckLow ball => Sys2Proof.Machine.execBallStuckLow ball s
  | .clrIso p => Sys2Proof.Machine.execClrIso p s
  | .lnkTorusWrite p w => Sys2Proof.Machine.execLnkTorusWrite p w s
  | .portMapWrite p port dir => Sys2Proof.Machine.execPortMapWrite p port dir s
  | .portDisable p port dis => Sys2Proof.Machine.execPortDisable p port dis s
  | .retrain p port => Sys2Proof.Machine.execRetrain p port s
  | .retrainTimer port => Sys2Proof.Machine.execRetrainTimer port s
  | .lnkThruWrite p q w => Sys2Proof.Machine.execLnkThruWrite p q w s
  | .signalDetect port res => Sys2Proof.Machine.execSignalDetect port res s
  | .laneIdentification port locked => Sys2Proof.Machine.execLaneIdentification port locked s
  | .identityExchange port idf => Sys2Proof.Machine.execIdentityExchange port idf s
  | .trainingDone port lat => Sys2Proof.Machine.execTrainingDone port lat s
  | .identityFrame port idf => Sys2Proof.Machine.execIdentityFrame port idf s
  | .laneLossOfLock port lane lost => Sys2Proof.Machine.execLaneLossOfLock port lane lost s
  | .laneChangeFrame port lane => Sys2Proof.Machine.execLaneChangeFrame port lane s
  | .laneSpareMove port => Sys2Proof.Machine.execLaneSpareMove port s
  | .frameTransmit port slot => Sys2Proof.Machine.execFrameTransmit port slot s
  | .dataFrameArrival port wire lockLost => Sys2Proof.Machine.execDataFrameArrival port wire lockLost s
  | .frameForward port bytes => Sys2Proof.Machine.execFrameForward port bytes s
  | .throughFrame port bytes => Sys2Proof.Machine.execThroughFrame port bytes s
  | .nakFrame port c index => Sys2Proof.Machine.execNakFrame port c index s
  | .cxlLinkTrained width rate flit256 => Sys2Proof.Machine.execCxlLinkTrained width rate flit256 s
  | .openBlockWriteVisible c blk => Sys2Proof.Machine.execOpenBlockWriteVisible c blk s
  | .reservedFtypeFrame port bytes => Sys2Proof.Machine.execReservedFtypeFrame port bytes s
  | .reservedTrestleFrame f typ payload => Sys2Proof.Machine.execReservedTrestleFrame f typ payload s

end Sys2Proof.Machine
end

