-- ==== Sys2Proof/Machine/Tick.lean ====
section
/-! DEFINITION. What one reference tick does while no command waits. -/

namespace Sys2Proof.Machine

/-- One tick of the reference clock (R290): both time bases go on, the flits under way take their course (R114), a
certificate fetch whose writes are issued completes (R364), messages that waited for their µs go out (R384), the
verification of a received image ends (R393), and orders held by a check that no longer runs execute (R442). -/
def tickOp (s : State) : State :=
  let s := recVerify (raiseDue (fetchDone (landNow (elapse 1 s))))
  if s.chain.check.isNone && !s.chain.held.isEmpty && !s.mgt.hkStopped then drainHeld s else s

/-- A tick has no effect while PERST_N is asserted. -/
def idleTick (s : State) : Host.Outcome State Fault Refusal := goMem s tickOp

end Sys2Proof.Machine
end

