-- ==== Sys2Proof/WellFormed.lean ====
section
/-! DEFINITION. Which commands are well formed: every operand that the spec numbers or sizes lies in its
range.  The meanings take any command; a well-formed one is what the outside world can send. -/

namespace Sys2Proof

/-- What an operand counts or measures. -/
inductive Kind where
  /-- A die number (R8). -/
  | die
  /-- A Span (R8). -/
  | span
  /-- A Bay of a Span. -/
  | bay
  /-- A physical Pier of a Bay, the spare included. -/
  | phys
  /-- A logical Pier of a Bay. -/
  | logical
  /-- A pier_mask (Table 6.10). -/
  | mask
  /-- An accumulator slot (Table 6.10). -/
  | slot
  /-- A segment record address (Table 6.10). -/
  | segRec
  /-- A record spacing (Table 6.10). -/
  | stride
  /-- A 64-byte unit of a Deck slice. -/
  | deckUnit
  /-- A local address (Table 6.10). -/
  | laddr
  /-- A 64-byte unit of an Abutment SRAM. -/
  | sramUnit
  /-- A group of a Span. -/
  | grp
  /-- A Girder of a Span. -/
  | girder
  /-- A routine table index. -/
  | routine
  /-- A 32-bit argument. -/
  | arg32
  /-- A flit count (Table 6.10). -/
  | flits
  /-- A 64-byte unit from the carve-out base. -/
  | hoff
  /-- An admission slot (Table 6.10). -/
  | aslot
  /-- A page ordinal of a request. -/
  | page
  /-- Pages of one KV_RD. -/
  | pages
  /-- A KV head. -/
  | head
  /-- A token index of a step. -/
  | tok
  /-- A logical direction of the torus. -/
  | dir
  /-- A member index of a slice. -/
  | member
  /-- A receive buffer. -/
  | rxbuf
  /-- A sequence tag. -/
  | tag
  /-- Arrivals that one WAIT names. -/
  | arrivals
  /-- A Carriageway. -/
  | cwy
  /-- An issue cycle (Table 6.8). -/
  | cyc
  /-- A predicate; 3 is reserved (Table 6.8). -/
  | pred
  /-- A layer index; 255 means none (Table 6.8). -/
  | layer
  /-- A register field of a Girder instruction. -/
  | vreg
  /-- A predicate register of a Girder. -/
  | gpred
  /-- The value of a frequency-step field. -/
  | freqStep
  /-- A tenant slot. -/
  | tenant
  /-- A ring. -/
  | ring
  /-- A Spandrel slot. -/
  | spandrel
  /-- A physical port. -/
  | port
  /-- A lane of a port. -/
  | lane
  /-- A Trestle ball. -/
  | ball
  /-- An MSI-X vector. -/
  | vector
  /-- A conversion slot m (R58). -/
  | convSlot
  /-- A flit of a partial sum (R87). -/
  | psFlit
  /-- A word of CWY_GRANT. -/
  | grantWord
  /-- A slot of an epoch (R328). -/
  | frameSlot
  /-- A one-byte field. -/
  | byte8
  /-- A hint number. -/
  | hint
  /-- Pier or Girder. -/
  | unitKind
  /-- The length of an SPDM message. -/
  | spdmLen
  /-- The code of GET_VERSION. -/
  | codeVersion
  /-- The code of GET_CAPABILITIES. -/
  | codeCaps
  /-- The code of NEGOTIATE_ALGORITHMS. -/
  | codeAlgs
  /-- The code of GET_DIGESTS. -/
  | codeDigests
  /-- The code of GET_CERTIFICATE. -/
  | codeCert
  /-- The code of CHALLENGE. -/
  | codeChallenge
  /-- The code of GET_MEASUREMENTS. -/
  | codeMeasures
  /-- The length of a flit or a descriptor. -/
  | len64
  /-- The length of the data bytes of a frame. -/
  | len416
  /-- The length of a frame on the wire. -/
  | len448
  /-- The length of a key envelope. -/
  | len1664
  /-- One entry for each die. -/
  | dies8
  /-- One entry for each core regulator. -/
  | regs4
  /-- One entry for each monitored rail. -/
  | rails11
  /-- One entry for each converter. -/
  | conv66
  /-- One entry for each column. -/
  | cols528
  /-- The words of one Trestle frame. -/
  | words16
  deriving DecidableEq, Repr

/-- The lowest and the highest value of an operand. -/
def Kind.range : Kind → Nat × Nat
  | .die => (0, 7)
  | .span => (0, 5)
  | .bay => (0, 255)
  | .phys => (0, 16)
  | .logical => (0, 15)
  | .mask => (0, 65535)
  | .slot => (0, 31)
  | .segRec => (0, 32767)
  | .stride => (0, 255)
  | .deckUnit => (0, 20479)
  | .laddr => (0, 2097151)
  | .sramUnit => (0, 1572863)
  | .grp => (0, 63)
  | .girder => (0, 63)
  | .routine => (0, 1023)
  | .arg32 => (0, 4294967295)
  | .flits => (1, 4095)
  | .hoff => (0, 8589934591)
  | .aslot => (0, 1023)
  | .page => (0, 1048575)
  | .pages => (1, 255)
  | .head => (0, 7)
  | .tok => (0, 255)
  | .dir => (0, 5)
  | .member => (0, 32767)
  | .rxbuf => (0, 255)
  | .tag => (0, 65535)
  | .arrivals => (0, 3)
  | .cwy => (0, 63)
  | .cyc => (0, 4194303)
  | .pred => (0, 2)
  | .layer => (0, 255)
  | .vreg => (0, 63)
  | .gpred => (0, 7)
  | .freqStep => (0, 63)
  | .tenant => (0, 1023)
  | .ring => (0, 1087)
  | .spandrel => (0, 255)
  | .port => (0, 5)
  | .lane => (0, 8)
  | .ball => (0, 1)
  | .vector => (0, 2047)
  | .convSlot => (0, 7)
  | .psFlit => (0, 34)
  | .grantWord => (0, 15)
  | .frameSlot => (0, 63)
  | .byte8 => (0, 255)
  | .hint => (0, 4294967295)
  | .unitKind => (0, 1)
  | .spdmLen => (4, 262144)
  | .codeVersion => (132, 132)
  | .codeCaps => (225, 225)
  | .codeAlgs => (227, 227)
  | .codeDigests => (129, 129)
  | .codeCert => (130, 130)
  | .codeChallenge => (131, 131)
  | .codeMeasures => (224, 224)
  | .len64 => (64, 64)
  | .len416 => (416, 416)
  | .len448 => (448, 448)
  | .len1664 => (1664, 1664)
  | .dies8 => (8, 8)
  | .regs4 => (4, 4)
  | .rails11 => (11, 11)
  | .conv66 => (66, 66)
  | .cols528 => (528, 528)
  | .words16 => (1, 16)

/-- A value in the range of its kind. -/
def Kind.admits (k : Kind) (v : Nat) : Bool := decide (k.range.1 ≤ v ∧ v ≤ k.range.2)

/-- The common fields of an op (Table 6.8). -/
def Op.operands (o : Op) : List (Kind × Nat) := [(.cwy, o.cwy), (.die, o.die), (.cyc, o.cyc), (.pred, o.pred), (.layer, o.layer)]

/-- The fields of a Girder instruction word (Table 6.13). -/
def GInstr.operands (i : GInstr) : List (Kind × Nat) := [(.span, i.span), (.girder, i.girder), (.vreg, i.vd), (.vreg, i.va), (.vreg, i.vb), (.gpred, i.pred)]

/-- The head of a Trestle frame (Table 16.4). -/
def THead.operands (f : THead) : List (Kind × Nat) := [(.ball, f.ball), (.byte8, f.dst), (.byte8, f.src), (.byte8, f.seq)]

/-- A vote or release frame. -/
def KeyFrame.operands (f : KeyFrame) : List (Kind × Nat) := [(.port, f.port), (.len448, f.wire.length)] ++ f.lockLost.toList.map (fun l => (.lane, l))

/-- The destination of a send. -/
def SendDst.operands : SendDst → List (Kind × Nat)
  | .bay die b => [(.die, die), (.bay, b)]
  | .sram die addr => [(.die, die), (.sramUnit, addr)]

/-- An endpoint of a MOVE. -/
def Endpoint.operands : Endpoint → List (Kind × Nat)
  | .deck die addr => [(.span, die), (.laddr, addr), (.deckUnit, addr % 32768)]
  | .sram die addr => [(.die, die), (.sramUnit, addr)]
  | .combine die bay => [(.span, die), (.bay, bay)]

/-- One arrival of a WAIT. -/
def Arrival.operands (a : Arrival) : List (Kind × Nat) := [(.rxbuf, a.rxbuf), (.tag, a.tag)]

/-- A flit that arrives damaged. -/
def FlitFail.operands (e : FlitFail) : List (Kind × Nat) := [(.len64, e.data.length)]

/-- The length and the code of an SPDM request. -/
def spdmOperands (k : Kind) (m : List Byte) : List (Kind × Nat) := [(.spdmLen, m.length), (k, (m.getD 1 0).toNat)]

/-- The bounded operands of a command. -/
def Instr.operands : Instr → List (Kind × Nat)
  | .perstNDeassert => []
  | .perstNAssert => []
  | .configRequest _ => []
  | .stageRom _ => []
  | .stageVerify _ => []
  | .stageDies _ _ => []
  | .stageHbm failRows spareRows => [(.dies8, failRows.length), (.dies8, spareRows.length)]
  | .stageLedger _ => []
  | .stageMargin res => [(.dies8, res.length)]
  | .stageCal => []
  | .recBufferWrite _ _ => []
  | .recBegin _ => []
  | .recChunk _ _ => []
  | .recFinish => []
  | .recAbort => []
  | .recReinitLedger => []
  | .recoveryProgramDone _ _ => []
  | .commitSvn cmd => [(.byte8, cmd)]
  | .commitSvnDone => []
  | .watchdogExpiry => []
  | .hkUncorrectableError => []
  | .housekeeperRestart _ _ _ => []
  | .watchdogService => []
  | .registerWrite _ _ _ _ => []
  | .pllLockLoss d => [(.die, d)]
  | .jobFreqWrite _ n => [(.freqStep, n)]
  | .slewComplete => []
  | .idleGlideStep => []
  | .droopTrip d => [(.die, d)]
  | .droopClear => []
  | .slewResume => []
  | .vrAlertAssert status => [(.regs4, status.length)]
  | .vrAlertDeassert => []
  | .floorRelease => []
  | .marginSearch res => [(.dies8, res.length)]
  | .powerSample mv => [(.rails11, mv.length)]
  | .energySplit _ => []
  | .capLoop => []
  | .pwrCapWrite _ _ => []
  | .hintBoostStart n => [(.hint, n)]
  | .hintWindowEnd n => [(.hint, n)]
  | .thermalModelStep => []
  | .diodeRead _ => []
  | .thermalCompare => []
  | .shutdownComplete _ => []
  | .thermtrip d => [(.die, d)]
  | .beat op bay mask slot rec stride => op.operands ++ [(.bay, bay), (.mask, mask), (.slot, slot), (.segRec, rec), (.stride, stride)]
  | .conversionSlot span bay phys m raw _ => [(.span, span), (.bay, bay), (.phys, phys), (.convSlot, m), (.conv66, raw.length)]
  | .beatVerdict span bay phys _ => [(.span, span), (.bay, bay), (.phys, phys)]
  | .slotApply span bay _ _ => [(.span, span), (.bay, bay)]
  | .ballast op bay mask => op.operands ++ [(.bay, bay), (.mask, mask)]
  | .wseg op bay pier slot rec _ => op.operands ++ [(.bay, bay), (.logical, pier), (.slot, slot), (.segRec, rec)]
  | .slotClear op bay slot => op.operands ++ [(.bay, bay), (.slot, slot)]
  | .slotDrain op bay slot off => op.operands ++ [(.bay, bay), (.slot, slot), (.deckUnit, off)]
  | .slotSend op bay slot dst crc => op.operands ++ [(.bay, bay), (.slot, slot)] ++ dst.operands ++ (crc.flatMap FlitFail.operands)
  | .combine op bay slot => op.operands ++ [(.bay, bay), (.slot, slot)]
  | .partialSumFlitArrival span bay _ f => [(.span, span), (.bay, bay), (.psFlit, f)]
  | .girder op g routine arg0 arg1 _ _ fail => op.operands ++ [(.girder, g), (.routine, routine), (.arg32, arg0), (.arg32, arg1)] ++ (fail.read.crc.flatMap FlitFail.operands)
  | .vfmaBf16 i _ => i.operands
  | .vfmaF32 i _ => i.operands
  | .vdotI8 i _ _ => i.operands
  | .valu i _ _ => i.operands
  | .vmax i _ _ => i.operands
  | .vex2 i _ => i.operands
  | .vrcp i _ => i.operands
  | .vrsq i _ => i.operands
  | .vreq i r _ => i.operands ++ [(.aslot, r.slot)]
  | .vtopk i _ _ _ slot _ => i.operands ++ [(.aslot, slot)]
  | .vld i off _ => i.operands ++ [(.deckUnit, off)]
  | .vst i off _ => i.operands ++ [(.deckUnit, off)]
  | .vrld i grp off _ => i.operands ++ [(.grp, grp), (.deckUnit, off)]
  | .salu i _ _ => i.operands
  | .smul i _ => i.operands
  | .loop i _ _ => i.operands
  | .endRoutine span gd _ => [(.span, span), (.girder, gd)]
  | .move op src dst flits crc => op.operands ++ src.operands ++ dst.operands ++ [(.flits, flits)] ++ (crc.flatMap FlitFail.operands)
  | .hbmRd op hoff laddr flits _ crc => op.operands ++ [(.hoff, hoff), (.laddr, laddr), (.flits, flits)] ++ (crc.flatMap FlitFail.operands)
  | .hbmWr op hoff laddr flits crc => op.operands ++ [(.hoff, hoff), (.laddr, laddr), (.flits, flits)] ++ (crc.flatMap FlitFail.operands)
  | .kvRd op aslot page pages head laddr _ crc => op.operands ++ [(.aslot, aslot), (.page, page), (.pages, pages), (.head, head), (.laddr, laddr)] ++ (crc.flatMap FlitFail.operands)
  | .kvStage op aslot tok head laddr crc => op.operands ++ [(.aslot, aslot), (.tok, tok), (.head, head), (.laddr, laddr)] ++ (crc.flatMap FlitFail.operands)
  | .plSend op dir dmember rxbuf tag saddr flits => op.operands ++ [(.dir, dir), (.member, dmember), (.rxbuf, rxbuf), (.tag, tag), (.sramUnit, saddr), (.flits, flits)]
  | .wait op arrivals => op.operands ++ [(.arrivals, arrivals.length)] ++ (arrivals.flatMap Arrival.operands)
  | .waitRelease c => [(.cwy, c)]
  | .waitLimitExpiry c dir => [(.cwy, c), (.dir, dir)]
  | .streamDrainDone c => [(.cwy, c)]
  | .streamFetch c die _ fail => [(.cwy, c), (.die, die)] ++ (fail.crc.flatMap FlitFail.operands)
  | .keystone op _ => op.operands
  | .voteFrameArrival c child f => [(.cwy, c), (.member, child)] ++ f.operands
  | .releaseFrameArrival c _ _ => [(.cwy, c)]
  | .bodyStart c _ => [(.cwy, c)]
  | .keystoneTimeout c => [(.cwy, c)]
  | .idleKeystone c => [(.cwy, c)]
  | .takeoverKeystone c => [(.cwy, c)]
  | .holdDone c _ => [(.cwy, c)]
  | .jobStart c _ => [(.cwy, c)]
  | .ballastTimer c _ => [(.cwy, c)]
  | .rampWindow c _ => [(.cwy, c)]
  | .cwyEnable _ c => [(.cwy, c)]
  | .cwyDisable _ c => [(.cwy, c)]
  | .cwyResume _ c _ => [(.cwy, c)]
  | .consistencyCheckDone => []
  | .grantWrite _ c k _ => [(.cwy, c), (.grantWord, k)]
  | .tenantBind t => [(.tenant, t)]
  | .bindingCheckDone => []
  | .tenantUnbind t => [(.tenant, t)]
  | .doorbellSnoop r _ _ => [(.ring, r)]
  | .doorbellPoll r _ _ => [(.ring, r)]
  | .doorbellModeChange _ => []
  | .descriptorReadComplete r descs => [(.ring, r)] ++ (descs.map (fun d => (.len64, d.length)))
  | .submit r => [(.ring, r)]
  | .cancel r => [(.ring, r)]
  | .pause r => [(.ring, r)]
  | .resume r => [(.ring, r)]
  | .query r => [(.ring, r)]
  | .fetchCert r => [(.ring, r)]
  | .loadWeights r => [(.ring, r)]
  | .loadWeightsKeyEnvelope r => [(.ring, r.ring)] ++ (r.fail.crc.flatMap FlitFail.operands)
  | .replaceLayer r => [(.ring, r)]
  | .loadSpandrel r => [(.ring, r)]
  | .retireSpandrel r => [(.ring, r)]
  | .hint r => [(.ring, r)]
  | .reservedKind r => [(.ring, r)]
  | .promptChunkRead _ _ => []
  | .prefixLookupRead _ _ => []
  | .hostAccessFailure _ => []
  | .ringAccessFailure r _ _ => [(.ring, r)]
  | .ttlLapse _ => []
  | .copyOutBlockAck _ page _ => [(.page, page)]
  | .restoreBlockRead _ page _ _ => [(.page, page)]
  | .bundleChunk c read => [(.cwy, c)] ++ (read.fail.crc.flatMap FlitFail.operands)
  | .bundleLoadDone c => [(.cwy, c)]
  | .bulkWriteDone span bay phys fin => [(.span, span), (.bay, bay), (.phys, phys)] ++ (fin.fail.crc.flatMap FlitFail.operands)
  | .spandrelPlaced n => [(.spandrel, n)]
  | .refreshReadDone span bay read => [(.span, span), (.bay, bay), (.phys, read.phys)] ++ (read.fail.crc.flatMap FlitFail.operands)
  | .refreshRowWrite span bay phys row => [(.span, span), (.bay, bay), (.phys, phys)] ++ (row.crc.flatMap FlitFail.operands)
  | .refreshOverdue span bay phys => [(.span, span), (.bay, bay), (.phys, phys)]
  | .vrefSample _ => []
  | .calibrationBeat span bay phys _ => [(.span, span), (.bay, bay), (.phys, phys)]
  | .calPassDone span bay phys sums _ => [(.span, span), (.bay, bay), (.phys, phys), (.cols528, sums.length)]
  | .recoveryActionStart => []
  | .winCfgWrite _ _ => []
  | .ledgerWrite _ => []
  | .ledgerCheckpoint _ => []
  | .ledgerCompaction _ => []
  | .inspectionBeat span bay phys _ _ _ => [(.span, span), (.bay, bay), (.phys, phys)]
  | .spareInspection span bay phys _ => [(.span, span), (.bay, bay), (.phys, phys)]
  | .girderInspection span gd _ => [(.span, span), (.girder, gd)]
  | .inspectionStarved unit span _ _ => [(.unitKind, unit), (.span, span)]
  | .fenceClear _ _ => []
  | .fenceClearDone runs => [(.dies8, runs.length)]
  | .windowClose => []
  | .windowSigned => []
  | .signingFailure => []
  | .eventHeadPoll _ => []
  | .eventRingFailure _ => []
  | .eventRingEnable => []
  | .msixUnmask v => [(.vector, v)]
  | .ringEnable r => [(.ring, r)]
  | .ringDisable r => [(.ring, r)]
  | .ringOff r => [(.ring, r)]
  | .hdmMapWrite _ => []
  | .landMapWrite _ => []
  | .hdmAccess _ _ => []
  | .bar2Access _ _ => []
  | .atsInvalidation _ _ => []
  | .cxlLinkLoss => []
  | .hotReset => []
  | .d3hot => []
  | .doeDiscovery _ => []
  | .cdatTableAccess _ => []
  | .getVersion q => spdmOperands .codeVersion (q.bytes)
  | .getCapabilities q => spdmOperands .codeCaps (q.bytes)
  | .negotiateAlgorithms _ head body => spdmOperands .codeAlgs (head ++ body)
  | .getDigests q => spdmOperands .codeDigests (q.bytes)
  | .getCertificate _ head off len => spdmOperands .codeCert (head ++ off ++ len)
  | .challenge _ head body => spdmOperands .codeChallenge (head ++ body)
  | .getMeasurements _ head nonce body => spdmOperands .codeMeasures (head ++ nonce ++ body)
  | .spdmUnsupportedRequest _ msg => [(.spdmLen, msg.length)]
  | .enumerate f next _ => f.operands ++ [(.byte8, next)]
  | .ident f => f.operands
  | .regRead f _ _ => f.operands
  | .regWrite f _ words => f.operands ++ [(.words16, words.length)]
  | .jobKey f c env => f.operands ++ [(.byte8, c), (.len1664, env.length)]
  | .alert f _ => f.operands
  | .spdm f msg => f.operands ++ [(.spdmLen, msg.length)]
  | .response f _ => f.operands
  | .ballContention ball _ => [(.ball, ball)]
  | .ballStuckLow ball => [(.ball, ball)]
  | .clrIso _ => []
  | .lnkTorusWrite _ _ => []
  | .portMapWrite _ port dir => [(.port, port), (.byte8, dir)]
  | .portDisable _ port _ => [(.port, port)]
  | .retrain _ port => [(.port, port)]
  | .retrainTimer port => [(.port, port)]
  | .lnkThruWrite _ q _ => [(.port, q)]
  | .signalDetect port _ => [(.port, port)]
  | .laneIdentification port _ => [(.port, port)]
  | .identityExchange port _ => [(.port, port)]
  | .trainingDone port _ => [(.port, port)]
  | .identityFrame port _ => [(.port, port)]
  | .laneLossOfLock port lane _ => [(.port, port), (.lane, lane)]
  | .laneChangeFrame port lane => [(.port, port), (.lane, lane)]
  | .laneSpareMove port => [(.port, port)]
  | .frameTransmit port slot => [(.port, port), (.frameSlot, slot)]
  | .dataFrameArrival port wire _ => [(.port, port), (.len448, wire.length)]
  | .frameForward port bytes => [(.port, port), (.len416, bytes.length)]
  | .throughFrame port bytes => [(.port, port), (.len416, bytes.length)]
  | .nakFrame port c _ => [(.port, port), (.cwy, c)]
  | .cxlLinkTrained _ _ _ => []
  | .openBlockWriteVisible c _ => [(.cwy, c)]
  | .reservedFtypeFrame port bytes => [(.port, port), (.len416, bytes.length)]
  | .reservedTrestleFrame f typ _ => f.operands ++ [(.byte8, typ)]

/-- Every bounded operand lies in its range. -/
def Instr.wf (i : Instr) : Bool := i.operands.all (fun e => e.1.admits e.2)

end Sys2Proof
end

