-- ==== Sys2Proof/Safety.lean ====
section
/-! DEFINITION. What claims are stated in: where a command completes, which commands may store to a memory or
write OTP and flash, and the invariants. -/

namespace Sys2Proof.Machine

/-- The device is out of reset: PERST_N is not asserted. -/
abbrev State.running (s : State) : Prop := s.host.perst = false

/-- The command completes in a next state that has the property. -/
abbrev Goes (c : Instr) (s : State) (P : State → Prop) : Prop := ∃ t, exec c s = .next t ∧ P t

/-- The command completes and changes nothing. -/
abbrev NoEffect (c : Instr) (s : State) : Prop := exec c s = .next s

/-- An op command whose op is not the head of a stream that issues changes nothing, and one whose predicate is false only lets its
stream pass it (R141, R142). -/
abbrev PassedOver (c : Instr) (op : Op) (is : Nat → Bool) (s : State) : Prop :=
  (s.atHead op is = false → NoEffect c s) ∧ (s.atHead op is = true → s.predTrue op = false → exec c s = .next (passOp op s))

/-- Flits have joined those under way for a Carriageway, in the order of their events, each at the bank in force (R125). -/
abbrev Launched (c : Nat) (xs : List Flight) (s t : State) : Prop :=
  (t.cwy c).flights = (xs.map (s.bankFlight c)).foldl (fun l x => x.insert l) (s.cwy c).flights

/-- Ring r is ON and the device may write to host memory. -/
abbrev State.serves (s : State) (r : Nat) : Prop := s.running ∧ (s.ring r).state = 1 ∧ s.pw.shutEnded = false

/-- The completion of a descriptor with its status, reason and two operands is written at the tail of its
completion queue, with the phase bit of R368, and one descriptor less is outstanding. -/
abbrev Completes (r i : Nat) (d : Bytes) (kind status reason a b : Nat) (s t : State) : Prop :=
  let x := s.ring r
  let c := cplRecord (slice d 8 8) i kind status reason 0 a b
  Output.hostWrite (s.ringPasid r) (s.cqBase r + 32 * (x.cqTail % 2 ^ s.cqLog r))
    (putBytes c 15 (leBytes 1 (getLe c 15 1 + (x.cqTail / 2 ^ s.cqLog r + 1) % 2))) ∈ t.out ∧
  (t.ring r).cqTail = (x.cqTail + 1) % 2 ^ 32 ∧ (t.ring r).outstanding = x.outstanding - 1

/-- The response of the device at address a to a Trestle frame is the newest output. -/
abbrev Responds (f : THead) (a status reason : Nat) (data : Bytes) (t : State) : Prop :=
  t.out.head? = some (.trestle f.ball (trestleBits (trestleFrame f.src a 0x03 f.seq (leBytes 1 status ++ leBytes 1 reason ++ zeros 2 ++ data))))

/-- The device, its Housekeeper running, acts on a whole Trestle frame addressed to it, of a type and a payload, and
may answer it. -/
abbrev State.answers (s : State) (f : THead) (a typ : Nat) (payload : Bytes) : Prop :=
  s.running ∧ s.mgt.hkStopped = false ∧ s.chain.addr = some a ∧ f.dst = a ∧ wholeFrame f typ payload = true ∧ s.isolated f.ball = false

/-- No error, demand, fence or queued action is left to act at the next Keystone of a Carriageway. -/
abbrev State.quiet (s : State) (c : Nat) : Prop :=
  (s.cwy c).run.errs = [] ∧ (s.cwy c).run.voteErrs = [] ∧ (s.cwy c).run.counted = [] ∧ s.cfgNew c = [] ∧
  s.ras.demands = [] ∧ s.ras.queue = [] ∧ s.ras.pend = []

/-- A command makes a release of a RUNNING or STOPPING Carriageway take effect on the state u, where no fault acts at this Keystone:
a good step commits, grants a hold or glides, a bad first run is replayed, a failed replay ends the step's requests, and a stop
stops. -/
abbrev Released (i : Instr) (c : Nat) (rel : Release) (s u : State) : Prop :=
  let x := u.cwy c
  u.quiet c → (x.life.state = .running ∨ x.life.state = .stopping) → x.key.kind = 0 →
  (rel.failed = false → rel.good = true → rel.stop = false → Goes i s (fun t =>
    let y := t.cwy c
    y.life.step = x.life.step + 1 ∧ y.life.sealed = x.life.sealed + 1 ∧ y.life.state = x.life.state ∧ y.life.aborts = x.life.aborts ∧
    y.life.replays = x.life.replays ∧ y.kv.staged = [] ∧
    (u.isLead c = true → (x.run.adm.map (·.handle)).Nodup → ∀ a ∈ x.run.adm, ∀ q q', u.req a.handle = some q → q.isComp = false →
      (∀ e ∈ u.reqs, e.2.companion ≠ some a.handle) → t.req a.handle = some q' →
      q'.gen = q.gen ++ q.stepToks a (rel.commit.getD a.slot 0xFF) (tgetD x.run.sel a.slot [])) ∧
    (rel.holdGranted = false → y.run.shape = rel.shape ∧ y.run.replay = false ∧ y.run.gap = rel.gap ∧ y.run.inBody = false ∧
      y.run.adm = rel.adm.map (fun a => { a with handle := u.reqKey c a.handle }) ∧ y.key.idle = rel.idle ∧ y.key.barrier = rel.barrier ∧
      y.key.ready = !(rel.idle || rel.barrier) ∧ y.key.own = none ∧ y.key.release = none) ∧
    (rel.holdGranted = true → ∀ l w, x.w.nextLayer = some l → tget x.w.staged l = some w → w.model = rel.holdLayer →
      y.w.holdLayer = l ∧ y.w.wstate = 4) ∧
    (rel.holdGranted = false → rel.glide = true → u.glideOwner = some c → t.pw.slew = some rel.glideUp ∧ t.pw.slewOf = some c))) ∧
  (rel.failed = false → rel.good = false → rel.stop = false → Goes i s (fun t =>
    let y := t.cwy c
    y.run.replay = true ∧ y.run.shape = x.run.shape ∧ y.run.adm = x.run.adm ∧ y.run.cands = x.run.cands ∧ y.run.grants = x.run.grants ∧
    y.run.denials = x.run.denials ∧ y.run.inBody = false ∧ y.key.ready = true ∧ y.life.step = x.life.step ∧ y.life.sealed = x.life.sealed ∧
    y.life.aborts = x.life.aborts ∧ y.life.replays = x.life.replays + 1 ∧ y.kv.staged = [] ∧ t.deck = u.deck ∧ t.sram = u.sram ∧ t.bays = u.bays ∧
    ∀ h q, u.req h = some q → ∃ q', t.req h = some q' ∧ q'.gen = q.gen ∧ q'.len = q.len ∧ q'.phase = q.phase)) ∧
  (rel.failed = true → rel.stop = false → rel.holdGranted = false → Goes i s (fun t =>
    let y := t.cwy c
    y.life.aborts = x.life.aborts + 1 ∧ y.life.step = x.life.step ∧ y.life.sealed = x.life.sealed ∧ y.life.state = x.life.state ∧
    y.kv.staged = [] ∧ y.run.replay = false ∧ y.run.shape = rel.shape ∧
    (u.isLead c = true → ∀ a ∈ x.run.adm, t.req a.handle = none))) ∧
  (rel.stop = true → rel.stopCause < 3 → Goes i s (fun t =>
    let y := t.cwy c
    y.life.state = .disabled ∧ y.life.enable = false ∧ y.life.stopCause = (if x.life.state = .stopping then 1 else 6) ∧ y.jk = {} ∧
    y.run.inBody = false)) ∧
  (rel.stop = true → 3 ≤ rel.stopCause → Goes i s (fun t =>
    let y := t.cwy c
    y.life.state = (if x.life.state = .stopping then .disabled else .stopped) ∧
    y.life.stopCause = (if (match x.key.own with | some v => v.stopCause | none => 0) = rel.stopCause then rel.stopCause else 6) ∧
    y.run.inBody = false))

/-- Commands that may store to HBM, Deck SRAM or Abutment SRAM. -/
def storing : Instr → Bool
  | .bar2Access _ _ | .hdmAccess _ _ | .bundleChunk _ _ | .dataFrameArrival _ _ _ | .frameTransmit _ _ | .grantWrite _ _ _ _
  | .keystone _ _ | .partialSumFlitArrival _ _ _ _ | .pause _ | .regWrite _ _ _ | .registerWrite _ _ _ _
  | .releaseFrameArrival _ _ _ | .restoreBlockRead _ _ _ _ | .stageHbm _ _ | .streamDrainDone _ | .consistencyCheckDone
  | .bindingCheckDone => true
  | _ => false

/-- The writable bits of a register word whose fields are all RWL (Table 17.2), by its offset. -/
def rwlMask (off : Nat) : Option Nat :=
  let all := 2 ^ 64 - 1
  if off % 8 ≠ 0 then none
  else if off = 0x10048 then some (0xFFFF * 2 ^ 48)
  else if off = 0x10050 then some ((2 ^ 40 - 1) * 2 ^ 24)
  else if off = 0x10058 then some all
  else if 0x14000 ≤ off ∧ off < 0x14000 + 0x20 * 1088 ∧ off % 32 ≠ 0 then some (if off % 32 = 8 ∧ 0x14000 + 0x20 * 1024 ≤ off then all - 15 else all)
  else if 0x20000 ≤ off ∧ off < 0x30000 then [(8, 0xFF + 7 * 2 ^ 49), (16, all), (24, 2 ^ 48 - 1)].lookup (off % 64)
  else if 0x30000 ≤ off ∧ off < 0x34000 then some all
  else if 0x40000 ≤ off ∧ off < 0x50000 then
    [(0x20, 0x7FF + 0xF * 2 ^ 16 + 0xFF * 2 ^ 24), (0x30, 2 ^ 39 - 1), (0x38, 2 ^ 39 - 1), (0x40, 2 ^ 54 - 1),
     (0x48, 0x3FFFF + 0xFFFF * 2 ^ 32 + 0xF * 2 ^ 48 + 0x1F * 2 ^ 56), (0x50, 0x3F + 0x7FF * 2 ^ 16 + 0x7FF * 2 ^ 32 + 0x7FF * 2 ^ 48),
     (0x80, 2 ^ 23 - 1)].lookup (off % 0x400)
  else if 0xD1000 ≤ off ∧ off < 0xD1800 ∧ off % 32 = 0 then some all
  else if 0xD2000 ≤ off ∧ off < 0xD2800 ∧ off % 32 < 24 then some (0xF0FFFFFF * (2 ^ 32 + 1))
  else none

/-- Commands that reach HBM at an address of the outside's choosing, which may not exist (R11). -/
def mayFault : Instr → Bool
  | .hbmRd _ _ _ _ _ _ | .hbmWr _ _ _ _ _ | .hdmAccess _ _ | .bar2Access _ _ => true
  | _ => false

/-- Commands that reset the device. -/
def resetting : Instr → Bool
  | .perstNAssert | .perstNDeassert => true
  | _ => false

/-- Every memory of the device is canonical. -/
def State.memoriesWf (s : State) : Bool := memWf s.hbm && memWf s.deck && memWf s.sram

/-- At most 15 epoch fuses are burnt (R398). -/
def State.nvOk (s : State) : Prop := s.nv.epoch ≤ 15

/-- The lane words that a sound vector instruction leaves: those of its 128 lanes in vd, every other vector register, the
scalar registers, the predicates, every other Girder and the registers of the device as before. -/
abbrev laneResult (i : GInstr) (s t : State) (f : Nat → Nat) : Prop :=
  (∀ l < 128, (t.girder (girNo i.span i.girder)).lane i.vd l = f l % 2 ^ 32) ∧
  (∀ r l, r % 64 ≠ i.vd % 64 → l < 128 → (t.girder (girNo i.span i.girder)).lane r l = (s.girder (girNo i.span i.girder)).lane r l) ∧
  (t.girder (girNo i.span i.girder)).sreg = (s.girder (girNo i.span i.girder)).sreg ∧
  (t.girder (girNo i.span i.girder)).pred = (s.girder (girNo i.span i.girder)).pred ∧
  (∀ n, n ≠ girNo i.span i.girder → t.girder n = s.girder n) ∧ t.words = s.words ∧ t.bays = s.bays ∧ t.host = s.host ∧ t.pw = s.pw

end Sys2Proof.Machine
end

