-- ==== Sys2Proof/Certificates/Slice0/Obligations.lean ====
section
/-! DEFINITION. The statements for the provers. -/

open Sys2Proof Sys2Proof.Machine

/-! ### The step, the queue and what every command keeps -/

/-- A step on a non-empty queue takes the front command off it and runs it. -/
def Obligations.StepRunsTheFrontCommand : Prop :=
  ∀ (c : Instr) (r : List Instr) (s : State), s.pending = c :: r → step s = exec c { s with pending := r }

/-- A step on an empty queue lets one reference tick pass (DESIGN CHOICE, log entry 4): with no order held, both time
bases advance and no register word, request, tenant, Girder, fault event or fuse changes, nor the Housekeeper's
mailboxes unless a received image is being verified; with no flit under way no Carriageway, Bay, port or memory
changes either. While a check runs, or the Housekeeper has stopped, the orders held stay held. -/
def Obligations.IdleStepIsOneTick : Prop :=
  ∀ s : State, s.pending = [] → s.running → s.chain.held = [] ∨ s.chain.check.isSome = true ∨ s.mgt.hkStopped = true →
    ∃ t, step s = .next t ∧ t.pw = advance 1 s.pw ∧ t.pw.refTicks = s.pw.refTicks + 1 ∧ t.words = s.words ∧ t.reqs = s.reqs ∧
      t.tenants = s.tenants ∧ t.girders = s.girders ∧ t.ras = s.ras ∧ (s.mgt.recResult ≠ 2 → t.mgt = s.mgt) ∧ t.nv = s.nv ∧ t.chain = s.chain ∧ t.pending = [] ∧
      ((∀ e ∈ s.cwys, e.2.flights = []) → t.cwys = s.cwys ∧ t.bays = s.bays ∧ t.ports = s.ports ∧
        t.hbm = s.hbm ∧ t.deck = s.deck ∧ t.sram = s.sram)

/-- Every command answers: one that cannot reach HBM at an address that does not exist completes in a next state, and no
command is refused. No command's effect touches the queue of waiting commands. -/
def Obligations.EveryCommandAnswersAndKeepsTheQueue : Prop :=
  ∀ (c : Instr) (s : State), (mayFault c = false → ∃ t, exec c s = .next t) ∧ (∀ r, exec c s ≠ .refused r) ∧
    (∀ t, exec c s = .next t → t.pending = s.pending)

/-- HBM, Deck SRAM and Abutment SRAM keep every byte in a command that is neither one of the storing ones nor a reset. -/
def Obligations.OnlyStoringCommandsTouchMemory : Prop :=
  ∀ (c : Instr) (s t : State), storing c = false → resetting c = false → exec c s = .next t →
    t.hbm = s.hbm ∧ t.deck = s.deck ∧ t.sram = s.sram

/-- Every step keeps the canonical form of the three memories. -/
def Obligations.MemoriesStayCanonical : Prop :=
  ∀ s t : State, s.memoriesWf = true → step s = .next t → t.memoriesWf = true

/-- Fuses only burn (R394, R398): no step lowers otp_svn or the count of epoch fuses, a step burns at most one epoch fuse,
and never a sixteenth. -/
def Obligations.FusesOnlyRise : Prop :=
  ∀ s t : State, step s = .next t →
    s.nv.otpSvn ≤ t.nv.otpSvn ∧ s.nv.epoch ≤ t.nv.epoch ∧ t.nv.epoch ≤ s.nv.epoch + 1 ∧ (s.nvOk → t.nvOk)

/-- otp_svn is raised only by COMMIT_SVN (R394): a step that changes it completes that command, and burns the svn of the
running image, which is higher; the boot ROM refuses every flash image whose svn is lower. -/
def Obligations.OtpSvnIsRaisedOnlyByCommitSvn : Prop :=
  (∀ s t : State, step s = .next t → t.nv.otpSvn ≠ s.nv.otpSvn →
    (∃ r, s.pending = .commitSvnDone :: r) ∧ s.mgt.hkResult = 1 ∧ s.nv.otpSvn < s.mgt.fwSvn ∧ t.nv.otpSvn = s.mgt.fwSvn) ∧
  (∀ s : State, s.running → s.waitsBehind .host = false → s.mgt.hkStopped = false → s.mgt.stage = 8 → s.mgt.hkResult ≠ 1 →
    Goes (.commitSvn 1) s (fun t => t.mgt = { s.mgt with hkResult := 1 } ∧ t.nv = s.nv)) ∧
  (∀ s : State, s.running → s.mgt.hkStopped = false → s.mgt.hkResult = 1 → s.nv.otpSvn < s.mgt.fwSvn →
    Goes .commitSvnDone s (fun t => t.nv = { s.nv with otpSvn := s.mgt.fwSvn })) ∧
  (∀ (b : Bytes) (s : State), s.running → s.mgt.hkStopped = false → s.mgt.stage = 1 →
    getLe (slice (s.imageBytes 0 8192 b) 0 8192) 6 2 < s.nv.otpSvn →
    Goes (.stageRom (some b)) s (fun t => t.mgt.stage = 0x0E ∧ t.mgt.recFlag = true))

/-- The state after reset (R7, R385): stage ROM, out of PERST_N, every Carriageway DISABLED, every ring OFF, every Pier
without an image, every port dark, no command waiting, the memories empty and canonical, no fuse burnt, and every
register word at the value of its card. -/
def Obligations.ResetStateIsClean : Prop :=
  State.reset.running ∧ State.reset.mgt.stage = 1 ∧ State.reset.memoriesWf = true ∧ State.reset.nvOk ∧ State.reset.pending = [] ∧
  (∀ c, (State.reset.cwy c).life.state = .disabled) ∧ (∀ r, (State.reset.ring r).state = 0) ∧
  (∀ b p, (State.reset.pier b p).state = 0) ∧ (∀ p, (State.reset.port p).state = 0) ∧ (∀ h, State.reset.req h = none) ∧
  (∀ o, State.reset.word o = (resetWord o).toNat) ∧ (∀ a, memRead State.reset.hbm a = 0)

/-! ### Reset, boot and recovery (section 16) -/

/-- While PERST_N is asserted every command but its two has no effect (DESIGN CHOICE, log entry 2). PERST_N_DEASSERT after
an assertion leaves every part at its reset value but OTP and flash, the outputs sent, the waiting commands and the
model's draw counter; a reset out of halt-safe makes a margin search due (R293). PERST_N_ASSERT resets the device too
and holds it, and an image being programmed is left unknown (R393). -/
def Obligations.PerstHoldsAndResetsTheDevice : Prop :=
  (∀ (c : Instr) (s : State), s.host.perst = true → resetting c = false → NoEffect c s) ∧
  (∀ s : State,
    (s.host.perst = true → exec .perstNDeassert s = .next { State.reset with
      en := { State.reset.en with marginDue := s.ras.haltSafe || s.en.marginDue }, nv := s.nv, draws := s.draws, out := s.out,
      pending := s.pending }) ∧
    (s.running → NoEffect .perstNDeassert s) ∧
    Goes .perstNAssert s (fun t => t.host = { State.reset.host with perst := true } ∧ t.words = [] ∧ t.mgt = State.reset.mgt ∧
      t.ras = State.reset.ras ∧ t.chain = State.reset.chain ∧ t.cwys = [] ∧ t.reqs = [] ∧ t.hbm = [] ∧ t.pending = s.pending ∧
      t.nv.otpSvn = s.nv.otpSvn ∧ t.nv.epoch = s.nv.epoch ∧
      (s.mgt.recResult ≠ 3 → t.nv = s.nv) ∧ (s.mgt.recResult = 3 → t.nv.flashImage = none)))

/-- The boot stages run in order (R385): STAGE_ROM goes to VERIFY when the header meets R391, STAGE_VERIFY starts the
image and goes to DIES when the signature verifies, and either goes to RECOVERY with its cause otherwise; STAGE_DIES
without an Abutment failure fences the failing Spans and goes to HBM, STAGE_HBM with repairable stacks zeroes every
byte of HBM and goes to LEDGER, STAGE_MARGIN with no failing die goes to CAL, and STAGE_CAL goes to READY; that the
passes of bring-up end with it, no beat of them left, is the model's choice (log 24). With the Housekeeper stopped no
stage ends (R396). STAGE_LEDGER with a readable boot record or checkpoint counts one boot more, with the epoch in bits
[31:28] (R398), and goes to MARGIN (R258). A failing boot ends in RECOVERY with its cause (R391) or in FAILED, which
is halt-safe, with its cause and die (R385, R387, R388, R398); which links and dies fail which is the model's choice
(log 21). -/
def Obligations.BootStagesRunInOrder : Prop :=
  ((∀ s : State, s.running → s.mgt.hkStopped = true →
    (∀ h, NoEffect (.stageRom h) s) ∧ (∀ b, NoEffect (.stageVerify b) s) ∧ (∀ p l, NoEffect (.stageDies p l) s) ∧
    (∀ f p, NoEffect (.stageHbm f p) s) ∧ (∀ r, NoEffect (.stageLedger r) s) ∧ (∀ r, NoEffect (.stageMargin r) s) ∧ NoEffect .stageCal s) ∧
  ∀ s : State, s.running → s.mgt.hkStopped = false →
    (∀ b, s.mgt.stage = 1 → Goes (.stageRom (some b)) s (fun t =>
      if headerCause s.nv.otpSvn (slice (s.imageBytes 0 8192 b) 0 8192) = 0 then
        t.mgt = { s.mgt with stage := 2, hdr := slice (s.imageBytes 0 8192 b) 0 8192 }
      else t.mgt.stage = 0x0E ∧ t.mgt.recFlag = true ∧
        t.mgt.recCause = headerCause s.nv.otpSvn (slice (s.imageBytes 0 8192 b) 0 8192))) ∧
    (∀ code, s.mgt.stage = 2 → Goes (.stageVerify (some code)) s (fun t =>
      if signCause s.mgt.hdr (s.imageBytes 8192 (getLe s.mgt.hdr 8 4) code) = 0 then
        t.mgt.stage = 3 ∧ t.mgt.fwSvn = getLe s.mgt.hdr 6 2 ∧ t.mgt.doeOn = true ∧
        t.mgt.imageDigest = imageDigestOf s.mgt.hdr (s.imageBytes 8192 (getLe s.mgt.hdr 8 4) code)
      else t.mgt.stage = 0x0E ∧ t.mgt.recFlag = true ∧ t.mgt.recCause = 5)) ∧
    (∀ pll link, s.mgt.stage = 3 → 6 ∉ pll → 7 ∉ pll → 1043 ∉ link →
      Goes (.stageDies pll link) s (fun t => t.mgt.stage = 4 ∧
        t.ras.spanFenced = (diesFailed pll link).foldl (fun a d => a ||| 2 ^ d) s.ras.spanFenced)) ∧
    (∀ fail spare, s.mgt.stage = 4 → (∀ k < 8, fail.getD k 0 ≤ spare.getD k 0) →
      Goes (.stageHbm fail spare) s (fun t => t.mgt.stage = 5 ∧ ∀ a, memRead t.hbm a = 0)) ∧
    (∀ res, s.mgt.stage = 6 → s.searchFails res = [] → Goes (.stageMargin res) s (fun t => t.mgt.stage = 7)) ∧
    (s.mgt.stage = 7 → Goes .stageCal s (fun t => t.mgt = { s.mgt with stage := 8 } ∧
      ((∀ b, (s.bay b).calPending = false) → ∀ b p, (t.pier b p).calLeft = none)))) ∧
  (∀ (all : List Bytes) (m : Bytes) (s : State), s.running → s.mgt.hkStopped = false → s.mgt.stage = 5 →
    ((all.filter recGood).filter (fun r => getLe r 0 1 == 5 || getLe r 0 1 == 7)).getLast? = some m →
    Goes (.stageLedger (some all)) s (fun t => t.mgt.stage = 6 ∧ t.ledger.boot = s.nv.epoch * 2 ^ 28 + (getLe m 16 4 + 1) % 2 ^ 28 ∧ t.ledger.ok = true ∧
      t.ledger.bad = min 255 (all.length - (all.filter recGood).length))) ∧
  (∀ s : State, s.running → s.mgt.hkStopped = false →
    (s.mgt.stage = 1 → Goes (.stageRom none) s (fun t => t.mgt.stage = 0x0E ∧ t.mgt.recCause = 1 ∧ t.mgt.recFlag = true)) ∧
    (s.mgt.stage = 2 → Goes (.stageVerify none) s (fun t => t.mgt.stage = 0x0E ∧ t.mgt.recCause = 1 ∧ t.mgt.recFlag = true)) ∧
    (∀ pll link, s.mgt.stage = 3 → 6 ∈ pll →
      Goes (.stageDies pll link) s (fun t => t.mgt.stage = 0x0F ∧ t.mgt.failCause = 3 ∧ t.mgt.failDie = 6 ∧ t.ras.haltSafe = true)) ∧
    (∀ pll link, s.mgt.stage = 3 → 6 ∉ pll → 7 ∈ pll ∨ 1043 ∈ link →
      Goes (.stageDies pll link) s (fun t => t.mgt.stage = 0x0F ∧ t.mgt.failCause = 2 ∧ t.ras.haltSafe = true)) ∧
    (∀ fail spare, s.mgt.stage = 4 → (∃ k < 8, spare.getD k 0 < fail.getD k 0) →
      Goes (.stageHbm fail spare) s (fun t => t.mgt.stage = 0x0F ∧ t.mgt.failCause = 1 ∧ 8 ≤ t.mgt.failDie ∧ t.mgt.failDie < 16 ∧
        spare.getD (t.mgt.failDie - 8) 0 < fail.getD (t.mgt.failDie - 8) 0 ∧ t.ras.haltSafe = true)) ∧
    (s.mgt.stage = 5 → Goes (.stageLedger none) s (fun t => t.mgt.stage = 0x0F ∧ t.mgt.failCause = 4 ∧ t.ras.haltSafe = true)) ∧
    (∀ res d, s.mgt.stage = 6 → (s.searchFails res).find? (fun d => decide (6 ≤ d)) = some d →
      Goes (.stageMargin res) s (fun t => t.mgt.stage = 0x0F ∧ t.mgt.failCause = 5 ∧ t.mgt.failDie = d ∧ t.ras.haltSafe = true)))

/-- In RECOVERY the mailbox takes an image (R392, R393): REC_BUFFER_WRITE stores 4 bytes to 4 KiB into the buffer,
REC_BEGIN starts a load, REC_CHUNK appends the buffer's first bytes when it is the next chunk of the right size,
REC_FINISH of a complete image starts verification, REC_ABORT drops the load, the end of the verification refuses the
image with the first condition of R391 that it fails or erases the image region, and RECOVERY_PROGRAM_DONE starts the
verified image, which reports a failed programming or read-back and still runs. The model's inference: result 5 with
cause 6 for a finish out of order and the end of verification at the next idle tick (log 26), and commands of a
stopped Housekeeper that have no effect (log 163). -/
def Obligations.RecoveryMailboxLoadsAnImage : Prop :=
  (∀ s : State, s.running → s.mgt.hkStopped = true →
    NoEffect .recFinish s ∧ NoEffect .recAbort s ∧ (∀ n, NoEffect (.recBegin n) s) ∧ (∀ k n, NoEffect (.recChunk k n) s) ∧
    (∀ off data, NoEffect (.recBufferWrite off data) s) ∧ (∀ p r, NoEffect (.recoveryProgramDone p r) s)) ∧
  ∀ s : State, s.running → s.mgt.stage = 0x0E → s.mgt.hkStopped = false →
    (∀ off data, 4 ≤ data.length → off % 4096 + data.length ≤ 4096 → off + data.length ≤ 32768 →
      Goes (.recBufferWrite off data) s (fun t => t.mgt = { s.mgt with recBuf := memPut s.mgt.recBuf off data })) ∧
    (∀ len, s.mgt.recResult ≠ 2 → s.mgt.recResult ≠ 3 → 8193 ≤ len → len ≤ 4194304 →
      Goes (.recBegin len) s (fun t => t.mgt.recResult = 1 ∧ t.mgt.recLen = len ∧ t.mgt.recImage = [] ∧ t.mgt.nextChunk = 0 ∧ t.mgt.received = 0)) ∧
    (∀ len, s.mgt.recResult ≠ 2 → s.mgt.recResult ≠ 3 → len < 8193 ∨ 4194304 < len →
      Goes (.recBegin len) s (fun t => t.mgt.recResult = 5 ∧ t.mgt.recStat = 6)) ∧
    (∀ n, s.mgt.recResult = 1 → s.mgt.received < s.mgt.recLen → n = min 32768 (s.mgt.recLen - s.mgt.received) →
      Goes (.recChunk s.mgt.nextChunk n) s (fun t => t.mgt.received = s.mgt.received + n ∧ t.mgt.nextChunk = s.mgt.nextChunk + 1 ∧
        t.mgt.recImage = s.mgt.recImage ++ (memSlice s.mgt.recBuf 0 n).map (fun e => (e.1 + s.mgt.received, e.2)))) ∧
    (s.mgt.recResult = 1 → s.mgt.received = s.mgt.recLen → Goes .recFinish s (fun t => t.mgt = { s.mgt with recResult := 2 })) ∧
    (s.mgt.recResult = 1 → s.mgt.received ≠ s.mgt.recLen → Goes .recFinish s (fun t => t.mgt.recResult = 5 ∧ t.mgt.recStat = 6)) ∧
    (s.mgt.recResult ≠ 2 → s.mgt.recResult ≠ 3 →
      Goes .recAbort s (fun t => t.mgt.recResult = 0 ∧ t.mgt.recImage = [] ∧ t.mgt.recLen = 0)) ∧
    (s.mgt.recResult = 2 → s.pending = [] → s.chain.held = [] → ∃ t, step s = .next t ∧ t.nv = s.nv ∧
      t.mgt = (if s.recCause = 0 then { s.mgt with recResult := 3 } else { s.mgt with recResult := 5, recStat := s.recCause }) ∧
      (s.recCause = 0 → t.out.head? = some (.flashErase 0 (2 ^ 22)))) ∧
    (∀ p r, s.mgt.recResult = 3 ∨ s.mgt.recResult = 2 → Goes (.recoveryProgramDone p r) s (fun t =>
      t.nv.otpSvn = s.nv.otpSvn ∧ t.nv.epoch = s.nv.epoch ∧
      if s.mgt.recResult = 3 ∨ s.recCause = 0 then
        t.mgt.recResult = 4 ∧ t.mgt.stage = 3 ∧ t.mgt.recFlag = false ∧ t.mgt.recStat = (if p then (if r then 0 else 8) else 7) ∧
        t.nv.flashImage = (if p && r then some s.mgt.recImage else none)
      else t.mgt.recResult = 5 ∧ t.mgt.recStat = s.recCause ∧ t.mgt.stage = 0x0E ∧ t.nv = s.nv))

/-- REC_REINIT_LEDGER (R398), in FAILED with cause 4 and with an epoch fuse left, burns one fuse, gives a Ledger whose
boot count is epoch × 2^28, and boot goes on at MARGIN; with all 15 burnt it is refused with cause 9; elsewhere it has
no effect, nor while the Housekeeper has stopped (log 163); that the device stays halt-safe as boot goes on at MARGIN
is the model's inference from R395 beside R398 (log 25). A host write of command 5 to MGT_REC_CTRL is the same
command. A write of go (R422), in its turn: COMMIT_SVN takes effect only in READY, while no command runs and the
Housekeeper does (log 163); a reserved command gives result 3. COMMIT_SVN_DONE burns the running image's svn when it
exceeds otp_svn, otherwise nothing, and answers otp_svn (R394). -/
def Obligations.FusesAreBurntOnOrder : Prop :=
  (∀ s : State, s.running →
    (s.mgt.hkStopped = false → s.mgt.stage = 0x0F → s.mgt.failCause = 4 → s.nv.epoch < 15 → Goes .recReinitLedger s (fun t =>
      t.nv = { s.nv with epoch := s.nv.epoch + 1 } ∧ t.ledger.boot = (s.nv.epoch + 1) * 2 ^ 28 ∧ t.mgt.stage = 6 ∧ t.ras = s.ras)) ∧
    (s.mgt.hkStopped = false → s.mgt.stage = 0x0F → s.mgt.failCause = 4 → 15 ≤ s.nv.epoch → Goes .recReinitLedger s (fun t =>
      t.nv = s.nv ∧ t.mgt = { s.mgt with recResult := 5, recStat := 9 })) ∧
    (s.mgt.stage ≠ 0x0F ∨ s.mgt.failCause ≠ 4 ∨ s.mgt.hkStopped = true → NoEffect .recReinitLedger s) ∧
    (∀ w : Word, fld w.toNat 56 8 = 5 → exec (.registerWrite .host 0xF0100 8 w) s = exec .recReinitLedger s)) ∧
  (∀ s : State, s.running →
    (∀ cmd, s.waitsBehind .host = false → s.mgt.hkStopped = false → s.mgt.stage = 8 → s.mgt.hkResult ≠ 1 →
      Goes (.commitSvn cmd) s (fun t => t.mgt = { s.mgt with hkResult := if cmd % 256 = 1 then 1 else 3 })) ∧
    (∀ cmd, s.waitsBehind .host = false → s.mgt.stage ≠ 8 ∨ s.mgt.hkResult = 1 ∨ s.mgt.hkStopped = true → NoEffect (.commitSvn cmd) s) ∧
    (∀ cmd, s.waitsBehind .host = true → Goes (.commitSvn cmd) s (fun t => t.mgt = s.mgt ∧ t.nv = s.nv)) ∧
    (s.mgt.hkStopped = false → s.mgt.hkResult = 1 → Goes .commitSvnDone s (fun t => t.nv = { s.nv with otpSvn := max s.nv.otpSvn s.mgt.fwSvn } ∧
      t.mgt = { s.mgt with hkResult := 2, hkDetail := max s.nv.otpSvn s.mgt.fwSvn })) ∧
    (s.mgt.hkResult ≠ 1 ∨ s.mgt.hkStopped = true → NoEffect .commitSvnDone s))

/-- The watchdog (R396, R397): an expiry sets expired, enters halt-safe and latches ALERT cause 0; an uncorrectable error
stops the core; only a host write of restart while expired is 1 reboots it, through verification of the flash image,
to RECOVERY where it fails or is erased for an image being programmed; the first service of restarted firmware clears
expired and counts a restart (R397), and none does in the recovery loop. The model's inference: a fleet restart
without effect (log 27), and the stage after a restart, kept in service and DIES from RECOVERY (log 195). -/
def Obligations.WatchdogExpiryEntersHaltSafe : Prop :=
  ∀ s : State, s.running →
    (s.mgt.expired = false → Goes .watchdogExpiry s (fun t => t.mgt.expired = true ∧ t.ras.haltSafe = true ∧ bit t.chain.alertLatch 0 = true)) ∧
    (s.mgt.expired = true → NoEffect .watchdogExpiry s) ∧
    Goes .hkUncorrectableError s (fun t => t.mgt = { s.mgt with hkStopped := true } ∧ t.ras = s.ras) ∧
    (∀ h x, NoEffect (.housekeeperRestart .fleet h x) s) ∧
    (∀ h x, s.mgt.expired = false → NoEffect (.housekeeperRestart .host h x) s) ∧
    (∀ x, s.mgt.expired = true → Goes (.housekeeperRestart .host none x) s (fun t =>
      t.mgt.expired = true ∧ t.mgt.hkStopped = false ∧ t.mgt.stage = 0x0E ∧ t.mgt.recCause = 1 ∧ t.mgt.rebooted = false)) ∧
    (∀ b x, s.mgt.expired = true → s.mgt.recResult = 3 → Goes (.housekeeperRestart .host (some b) x) s (fun t =>
      t.mgt.stage = 0x0E ∧ t.mgt.rebooted = false)) ∧
    (∀ b x, s.mgt.expired = true → Goes (.housekeeperRestart .host (some b) (some x)) s (fun t =>
      t.mgt.expired = true ∧ t.mgt.restarts = s.mgt.restarts ∧ t.ras = s.ras ∧ t.mgt.hkStopped = false ∧
      if headerCause s.nv.otpSvn (slice (s.imageBytes 0 8192 b) 0 8192) = 0 ∧
        signCause (slice (s.imageBytes 0 8192 b) 0 8192)
          (s.imageBytes 8192 (getLe (slice (s.imageBytes 0 8192 b) 0 8192) 8 4) x) = 0 then
        t.mgt.rebooted = true ∧ t.mgt.stage = (if s.mgt.stage = 0x0E then 3 else s.mgt.stage)
      else t.mgt.stage = 0x0E ∧ t.mgt.recFlag = true ∧ t.mgt.rebooted = false)) ∧
    (s.mgt.hkStopped = false → s.mgt.expired = true → s.mgt.rebooted = false → Goes .watchdogService s (fun t =>
      t.mgt.expired = true ∧ t.mgt.restarts = s.mgt.restarts)) ∧
    (s.mgt.hkStopped = false → s.mgt.expired = true → s.mgt.rebooted = true →
      Goes .watchdogService s (fun t => t.mgt.expired = false ∧ t.mgt.restarts = satAdd 8 s.mgt.restarts 1 ∧ t.ras = s.ras)) ∧
    (s.mgt.hkStopped = true → NoEffect .watchdogService s)

/-! ### Registers, clocks, power and temperature (sections 13 and 17) -/

/-- REGISTER_WRITE by the host (R412 to R414, R416, R421): an access that is not 4 or 8 bytes naturally aligned has no
effect, nor one of the DEV_ block, nor, before READY, one beyond the HOST_ and MGT_ blocks (R386). With nothing held,
a write of 8 bytes stores in each plain RW register what its card says, and in each RWL word its fields unless their
owning enable is set (Table 17.2), and no other word changes; CAL_CFG besides notes which Bays are current and what
running bodies count as accuracy-reduced (R285, R286). A write of 4 bytes is one of the word merged with its other
half. A write that a check, or an earlier access of its path, holds back joins the held ones as it came, with the
locks that it found; that writes of no order wait so is log entry 198. The HDM decoder's words follow CXL 3.1
(PRESUMED, log entry 219). -/
def Obligations.RegisterWritesStoreWhatTheCardSays : Prop :=
  ∀ (off size : Nat) (w : Word) (s : State), s.running →
    (s.holding = false → off < 0xF8000 → (size ≠ 4 ∧ size ≠ 8) ∨ off % size ≠ 0 → NoEffect (.registerWrite .host off size w) s) ∧
    (s.holding = false → off < 0x10000 → NoEffect (.registerWrite .host off size w) s) ∧
    (s.mgt.stage ≠ 8 → 0x20000 ≤ off → off < 0xF0000 → NoEffect (.registerWrite .host off size w) s) ∧
    (let n := w.toNat
     let trip := clampN (fld n 0 8) 20 100
     let cards : List (Nat × Nat) := [
      (0x10000, pack [(32, 16, clampN (fld n 32 16) 1 1000), (0, 1, n)]),
      (0x66000, pack [(8, 8, clampN (fld n 8 8) 60 85), (0, 8, clampN (fld n 0 8) 16 64)]),
      (0x80030, pack [(32, 8, clampN (fld n 32 8) 1 20), (20, 6, clampN (fld n 20 6) 24 32), (16, 1, fld n 16 1), (8, 8, min 8 (fld n 8 8))]),
      (0xA0040, pack [(32, 28, fld n 32 28), (24, 8, max 1 (fld n 24 8)), (16, 8, min 50 (fld n 16 8)), (8, 8, min (trip - 5) (fld n 8 8)), (0, 8, trip)]),
      (0xB0000, thmStored n), (0xC0000, calStored n),
      (0xF0010, pack [(32, 16, clampN (fld n 32 16) 10 10000), (2, 11, fld n 2 11)])]
     ∀ e ∈ cards, s.holding = false → s.mgt.stage = 8 ∨ e.1 < 0x20000 ∨ 0xF0000 ≤ e.1 →
      Goes (.registerWrite .host e.1 8 w) s (fun t => t.word e.1 = e.2 % 2 ^ 64 ∧ (∀ o, o ≠ e.1 → t.word o = s.word o) ∧ t.reqs = s.reqs ∧ t.tenants = s.tenants)) ∧
    (s.holding = false → s.mgt.stage = 8 → Goes (.registerWrite .host 0xB0000 8 w) s (fun t => t = s.setWord 0xB0000 (thmStored w.toNat))) ∧
    (s.holding = false → s.mgt.stage = 8 → Goes (.registerWrite .host 0xC0000 8 w) s (fun t =>
      t = noteAcc (noteCurrent ((noteAcc s).setWord 0xC0000 (calStored w.toNat))))) ∧
    (∀ m, rwlMask off = some m → s.holding = false → s.mgt.stage = 8 → Goes (.registerWrite .host off 8 w) s (fun t =>
      t.word off = (if s.lockedNow off then s.word off else w.toNat &&& m) ∧ (∀ o, o ≠ off → o ≠ 0xD0008 → t.word o = s.word o) ∧
      t.pw = s.pw ∧ t.hbm = s.hbm)) ∧
    (∀ b, accessWord off 4 = some b → off < 0xF8000 → s.holding = false →
      exec (.registerWrite .host off 4 w) s = exec (.registerWrite .host b 8 (BitVec.ofNat 64 (mergeHalf s off w.toNat))) s) ∧
    (∀ b, accessWord off size = some b → off < 0xF8000 → reinitWrite .host off size w = false → s.accessWaits .host b = true →
      Goes (.registerWrite .host off size w) s (fun t => t.words = s.words ∧ t.cwys = s.cwys ∧ t.pw = s.pw ∧ t.chain.held = s.chain.held ++
        [Held.mk (s.serSlot .host) (.registerWrite .host off size w)
          (if s.chain.slot.isSome then s.chain.locked else s.lockedOf (.registerWrite .host off size w))])) ∧
    (s.holding = false → s.hdmFixed = false →
      Goes (.registerWrite .host (compBase + hdmCap + 0x14) 4 w) s (fun t => t.compWord (hdmCap + 0x14) = w.toNat % 2 ^ 32 ∧ t.words = s.words) ∧
      Goes (.registerWrite .host (compBase + hdmCtl) 4 w) s (fun t => bit (t.compWord hdmCtl) 10 = bit w.toNat 9 ∧ t.words = s.words))

/-- A host write of the job frequency in READY with no order held (R295, R296): an accepted step becomes the target, a
refused one leaves the target and gives its reason; either way nothing but the power status changes. A glide step
(R299, R301, R304): IDLE_GLIDE_STEP starts a slew towards the target while no Carriageway owns the glide, no slew runs
and no cycle is skipped; SLEW_COMPLETE moves the current step by one, and the pacing gap of the Carriageway whose
Keystone applied the step counts from there (R310); SLEW_RESUME thaws a frozen slew once no cycle is skipped. -/
def Obligations.FrequencyOrdersAndGlides : Prop :=
  (∀ (n : Nat) (s : State), s.running → s.mgt.stage = 8 → s.holding = false → n < 64 →
    Goes (.jobFreqWrite .host n) s (fun t => t.words = s.words ∧ t.cwys = s.cwys ∧ t.bays = s.bays ∧ t.reqs = s.reqs ∧
      if s.freqVerdict n = 0 then t.pw = { s.pw with target := n, written := true, orderStatus := 0 }
      else t.pw = { s.pw with orderStatus := 5, reason := s.freqVerdict n })) ∧
  (∀ s : State, s.running →
    (s.glideOwner = none → s.pw.slew = none → s.pw.skipping = false → s.pw.curStep ≠ s.pw.target →
      Goes .idleGlideStep s (fun t => t.pw.slew = some (decide (s.pw.curStep < s.pw.target)) ∧ t.pw.slewOf = none ∧ t.pw.curStep = s.pw.curStep ∧
        t.pw.target = s.pw.target)) ∧
    (∀ up, s.pw.slew = some up → s.pw.frozen = false →
      Goes .slewComplete s (fun t => t.pw = { s.pw with slew := none, slewOf := none, curStep := if up then min 48 (s.pw.curStep + 1) else s.pw.curStep - 1 } ∧
        ∀ c, s.pw.slewOf = some c → (t.cwy c).run.gapFrom = s.pw.core)) ∧
    (s.pw.slew = none → NoEffect .slewComplete s) ∧
    (s.pw.frozen = true → NoEffect .slewComplete s) ∧
    (s.pw.skipping = false → Goes .slewResume s (fun t => t = { s with pw := { s.pw with frozen := false } })) ∧
    (s.pw.skipping = true → NoEffect .slewResume s))

/-- Droop and regulator alerts (R302, R303): DROOP_TRIP makes its die skip and freezes a slew in progress, unless the die
skips with another's droop already, and with the next tick every die whose clocks run skips with it; DROOP_CLEAR ends
the skipping of the dies that tripped, and the next tick that of the others: that the others follow with a tick, for
the 4 core cycles of R117, is the model's choice (log entry 159). VR_ALERT_ASSERT puts the floor pattern in force and,
unless the Housekeeper has stopped (what then stops is the model's inference, log entry 163), makes a margin search
due; VR_ALERT_DEASSERT leaves the floor, which FLOOR_RELEASE ends once the alert is gone. The loss of a PLL's lock
stops the die's clocks and enters halt-safe (R291); THERMTRIP stops a die's clocks and is latched (R322). -/
def Obligations.ClocksSkipAndStop : Prop :=
  (∀ s : State, s.running →
    (∀ d, d < 8 → bit s.pw.clkStopped d = false → bit s.pw.droop d = false ∨ s.pw.tripped = 0 → Goes (.droopTrip d) s (fun t =>
      t = { s with pw := { s.pw with droop := s.pw.droop ||| 2 ^ d, tripped := s.pw.tripped ||| 2 ^ d, frozen := s.pw.slew.isSome } })) ∧
    (s.pw.tripped ≠ 0 → ∀ d < 8, bit (advance 1 s.pw).droop d = !bit s.pw.clkStopped d) ∧ (s.pw.tripped = 0 → (advance 1 s.pw).droop = 0) ∧
    (∀ d, bit s.pw.clkStopped d = true ∨ (bit s.pw.droop d = true ∧ s.pw.tripped ≠ 0) → NoEffect (.droopTrip d) s) ∧
    Goes .droopClear s (fun t => t = { s with pw := { s.pw with droop := s.pw.droop ^^^ (s.pw.droop &&& s.pw.tripped), tripped := 0 } }) ∧
    (∀ st, s.pw.vrAlert = false → Goes (.vrAlertAssert st) s (fun t =>
      t.pw = { s.pw with vrAlert := true, floor := true, frozen := s.pw.slew.isSome } ∧
      (s.pw.shutdown = false → s.mgt.hkStopped = false → t.en = { s.en with marginDue := true }) ∧ t.words = s.words ∧ t.cwys = s.cwys)) ∧
    Goes .vrAlertDeassert s (fun t => t = { s with pw := { s.pw with vrAlert := false } }) ∧
    (s.pw.vrAlert = false → s.pw.shutdown = false → Goes .floorRelease s (fun t => t = { s with pw := { s.pw with floor := false } })) ∧
    (s.pw.vrAlert = true → NoEffect .floorRelease s)) ∧
  (∀ (d : Die) (s : State), s.running → d < 8 →
    (bit s.pw.clkStopped d = false → Goes (.pllLockLoss d) s (fun t =>
      bit t.pw.clkStopped d = true ∧ t.ras.haltSafe = true ∧ t.pw = { s.pw with clkStopped := s.pw.clkStopped ||| 2 ^ d })) ∧
    (bit s.pw.clkStopped d = true → NoEffect (.pllLockLoss d) s) ∧
    Goes (.thermtrip d) s (fun t => bit t.pw.clkStopped d = true ∧
      t = { s with pw := { s.pw with clkStopped := s.pw.clkStopped ||| 2 ^ d, thermtrip := true } }))

/-- A margin search that is due, with the Housekeeper running, the device idle and no search failing, sets the base of
every core rail (R293, R294). POWER_SAMPLE adds the energy of 1 µs on the eleven monitored rails, whose IMON inputs
give the currents by the full scales of Table 18.3 (R306, R428; that an input is read in whole mV is the model's
choice, log entry 218); ENERGY_SPLIT attributes an event's energy to its Carriageway and takes it from the
unattributed, so that the counters go on summing to the device's (R307). That energy is unattributed at first, and
that the split is made once over all dies and never exceeds what was measured, is the model's choice (log entry 112).
As read, in whole µJ, the counters sum to the device's exactly. -/
def Obligations.RailsAreSearchedAndMeasured : Prop :=
  (∀ (res : List MarginResult) (s : State), s.running → s.mgt.stage = 8 → s.mgt.hkStopped = false → s.chain.check = none → s.en.marginDue = true →
    (∀ c < 64, s.inState c [.checking, .starting, .running, .stopping] = false) → s.searchFails res = [] →
    Goes (.marginSearch res) s (fun t => t.en = { s.en with
      marginDue := false, marginBeat := some (serviceBeat s), base := (List.range 4).map (railBase s res) } ∧
      t.pw = s.pw ∧ t.words = s.words ∧ t.ras = s.ras)) ∧
  (∀ s : State, s.running →
    (∀ mv : List Nat,
      let full := [250, 250, 100, 100, 150, 300, 75, 10, 75, 15, 5]
      let uw := (List.range 11).map (fun i => s.railMv i * (min (mv.getD i 0) 1200 * full.getD i 0))
      Goes (.powerSample mv) s (fun t => t = { s with en := { s.en with
        railUw := uw, devPj := s.en.devPj + uw.sum, openPj := s.en.openPj + uw.sum, unattrPj := s.en.unattrPj + uw.sum } })) ∧
    (s.mgt.stage = 8 → s.en.devPj < 2 ^ 64 → ((List.range 64).map (fun c => tgetD s.en.cwyPj c 0)).sum ≤ s.en.devPj →
      s.regWord 0xA0058 + ((List.range 64).map (fun c => s.regWord (0xA1000 + 16 * c))).sum = s.regWord 0xA0050) ∧
    (Goes (.energySplit []) s (fun t => t = { s with en := { s.en with openPj := 0 }, thm := { s.thm with activity := [] } })) ∧
    (∀ a : Activity, a.cwy < 64 → Goes (.energySplit [a]) s (fun t =>
      tgetD t.en.cwyPj a.cwy 0 = tgetD s.en.cwyPj a.cwy 0 + min (Config.eventPj (actNum a.kind) * a.count) s.en.openPj ∧
      t.en.unattrPj = s.en.unattrPj - min (Config.eventPj (actNum a.kind) * a.count) s.en.openPj ∧
      (s.en.openPj ≤ s.en.unattrPj →
        tgetD t.en.cwyPj a.cwy 0 + t.en.unattrPj = tgetD s.en.cwyPj a.cwy 0 + s.en.unattrPj) ∧
      t.en.openPj = 0 ∧ t.en.devPj = s.en.devPj ∧ (t.cwy a.cwy).key.votePj = (s.cwy a.cwy).key.votePj +
        min (Config.eventPj (actNum a.kind) * a.count) s.en.openPj)))

/-- The cap loop sets the cap gap from the energy of the last 1 ms and never beyond pace_max (R309), unless the
Housekeeper has stopped (R396); PWR_CAP stores its fields within their limits and keeps ramp_limit when the enabled
shares exceed the one written (R312). A hint's boost is in force from HINT_BOOST_START to HINT_WINDOW_END (R313). -/
def Obligations.PowerStaysUnderItsCap : Prop :=
  (∀ s : State, s.running →
    (s.mgt.hkStopped = true → NoEffect .capLoop s) ∧
    (s.mgt.hkStopped = false → Goes .capLoop s (fun t => t.pw = { s.pw with capGap := s.nextCapGap } ∧ t.pw.capGap ≤ s.paceMax ∧
      t.en.capHist = (s.en.devPj :: s.en.capHist).take 100 ∧ t.en.devPj = s.en.devPj)) ∧
    (∀ w : Word, s.mgt.stage = 8 → s.holding = false → Goes (.pwrCapWrite .host w) s (fun t =>
      (if (s.enabledCwys.map s.rampShare).sum ≤ clampN (fld w.toNat 16 9) 8 256 then
        t.word 0xA0030 = capStored w.toNat (clampN (fld w.toNat 16 9) 8 256) % 2 ^ 64 ∧ t.pw.orderStatus = 0
      else t.word 0xA0030 = capStored w.toNat (s.capf 16 9) % 2 ^ 64 ∧ t.pw.orderStatus = 5 ∧ t.pw.reason = 0x23) ∧
      t.pw.capGap ≤ t.paceMax ∧ t.pw.thermGap ≤ t.paceMax))) ∧
  (∀ (n : Nat) (s : State), s.running →
    (∀ h, tget s.en.hints n = some h → Goes (.hintBoostStart n) s (fun t => t.en = { s.en with hints := tset s.en.hints n { h with on := true } } ∧
      t.words = s.words ∧ t.pw = s.pw)) ∧
    (tget s.en.hints n = none → NoEffect (.hintBoostStart n) s) ∧
    Goes (.hintWindowEnd n) s (fun t => t.en = { s.en with hints := tdel s.en.hints n } ∧ t.words = s.words ∧ t.pw = s.pw))

/-- The thermal path (R315 to R320): THERMAL_MODEL_STEP moves every node by the fused model, which is given the die's
temperatures, the rails' power and the activity counts of the interval, and keeps what R271 looks back for; DIODE_READ
excludes a diode that reads outside −40 °C to 150 °C; THERMAL_COMPARE keeps the temperatures of the last ten compares
and starts the orderly shutdown, which is halt-safe, when a node reaches t_shut. The orderly shutdown ends with writes
stopped, HBM in self-refresh, the Span clocks stopped and the floor only as long as the regulators alert (R320, Table
13.4). -/
def Obligations.ThermalPathMeasuresAndShutsDown : Prop :=
  (∀ s : State, s.running →
    Goes .thermalModelStep s (fun t => t.thm = { s.thm with past := t.thm.past, hotAt := t.thm.hotAt, node := allNodes.map (fun e =>
      (48 * e.1 + e.2, Config.rcStep e.1 e.2 (s.dieTemps e.1) s.en.railUw (s.dieActivity e.1))) } ∧ t.pw = s.pw ∧ t.words = s.words) ∧
    (∀ vals k, k < 48 → bit s.thm.diodeBad k = false → vals.getD k 0 < -40000 ∨ 150000 < vals.getD k 0 →
      Goes (.diodeRead vals) s (fun t => bit t.thm.diodeBad k = true ∧ t.words = s.words ∧ t.pw = s.pw)) ∧
    Goes .thermalCompare s (fun t => t.thm.hist = (s.thm.node :: s.thm.hist).take 10 ∧ t.thm.node = s.thm.node ∧ t.words = s.words) ∧
    (∀ e, e ∈ allNodes → 1000 * (s.thmf 16 8 : Int) ≤ s.nodeTemp e.1 e.2 →
      Goes .thermalCompare s (fun t => t.thm.shut = true ∧
        (s.thm.shut = false → t.pw.shutdown = true ∧ t.pw.floor = true ∧ t.ras.haltSafe = true)))) ∧
  (∀ (n : Nat) (s : State), s.running →
    (s.pw.shutdown = true → s.pw.shutEnded = false → Goes (.shutdownComplete n) s (fun t =>
      t.pw = { s.pw with shutEnded := true, floor := s.pw.vrAlert, clkStopped := s.pw.clkStopped ||| 0x3F, selfRefresh := true } ∧
      t.words = s.words ∧ (s.ras.haltSafe = true → t.ras.haltSafe = true))) ∧
    (s.pw.shutdown = false → NoEffect (.shutdownComplete n) s))

/-! ### Pier-beats and accumulator slots (sections 2 to 4, 10) -/

/-- BEAT (R54, R75, R25 to R27): of the logical Piers of its mask, in ascending order, the k-th reads the 576-byte record
at its first record plus k strides, as it stands before the op's cycle; one that is READY starts a beat with the drive
integers and extracted rows of that segment, and counts a live beat. A physical Pier that is not READY, or that no
Pier of the mask stands on, is as before. The Bay's main array is taken for 16 cycles a Pier (R78; from the op's issue
on, the model's choice, log entry 174). BALLAST (R128) of a Bay with a READY Pier in the mask keeps the Bay running
and delivers nothing: no beat in flight, slot, cell or count changes. WSEG (R40): the exact product of the 512 rows
with the logical Pier's weights, shifted by the record's u, is due in its slot 528 cycles after issue; the Piers
themselves do not beat. A residue mismatch of its products is an integrity error of the Bay (R102). -/
def Obligations.BeatsStartOnReadyPiers : Prop :=
  (∀ (op : Op) (bay mask slot rec stride : Nat) (s : State), s.running → s.issues op (isBeat op bay mask slot rec stride) = true →
    let n := bayNo op.die bay
    Goes (.beat op bay mask slot rec stride) s (fun t =>
      (∀ k l, (k, l) ∈ maskPiers mask → s.pstate n (s.phys n l) = 2 → (∀ e ∈ maskPiers mask, e.2 ≠ l → s.phys n e.2 ≠ s.phys n l) →
        let p := s.phys n l
        let r := ((passOp op s).seen op.cwy (s.opTime op - 1)).segRecord op.cwy op.die bay (rec + k * stride)
        (∃ b : Beat, tgetD (t.bay n).beats p [] = tgetD (s.bay n).beats p [] ++ [b] ∧ b.start = s.opTime op ∧ b.cwy = op.cwy ∧
          b.layer = op.layer ∧ b.slot = slot ∧ b.drive = driveOf (segOf r) ∧ b.ext = extracted (segOf r) ∧ b.u = getLe r 512 1 ∧
          b.aslot = getLe r 514 2) ∧
        (t.pier n p).live = (s.pier n p).live + 1) ∧
      (∀ q, (∀ e ∈ maskPiers mask, s.phys n e.2 = q → s.pstate n q ≠ 2) →
        t.pier n q = s.pier n q ∧ tgetD (t.bay n).beats q [] = tgetD (s.bay n).beats q []) ∧
      (t.bay n).array = (s.bay n).array.filter (fun e => decide (s.opTime op < e.1 + e.2)) ++ [(s.opTime op, 16 * (maskPiers mask).length)] ∧
      (∀ b, b ≠ n → t.bay b = s.bay b) ∧ (t.cwy op.cwy).run.errs = (s.cwy op.cwy).run.errs ∧ t.words = s.words ∧
      t.girders = s.girders ∧ t.host = s.host)) ∧
  (∀ (op : Op) (bay mask : Nat) (s : State), s.running → s.issues op (isBallast op 2 bay mask) = true →
    let n := bayNo op.die bay
    (maskPiers mask).any (fun e => s.pstate n (s.phys n e.2) == 2) = true →
    Goes (.ballast op bay mask) s (fun t =>
      (t.bay n).lastBeat = some (s.opTime op) ∧ (t.bay n).beats = (s.bay n).beats ∧ (t.bay n).cells = (s.bay n).cells ∧
      (t.bay n).contribs = (s.bay n).contribs ∧ (∀ b, b ≠ n → t.bay b = s.bay b) ∧
      (t.cwy op.cwy).run.counts = (s.cwy op.cwy).run.counts ∧ (t.cwy op.cwy).run.errs = (s.cwy op.cwy).run.errs ∧
      t.girders = s.girders ∧ t.words = s.words)) ∧
  (∀ (op : Op) (bay pier slot rec : Nat) (residue : Bool) (s : State), s.running → s.issues op (isWseg op bay pier slot rec) = true →
    let n := bayNo op.die bay
    let r := ((passOp op s).seen op.cwy (s.opTime op - 1)).segRecord op.cwy op.die bay rec
    Goes (.wseg op bay pier slot rec residue) s (fun t =>
      (∃ k : Sys2Proof.Machine.Contrib, (t.bay n).contribs = (s.bay n).contribs ++ [k] ∧ k.due = s.opTime op + 528 ∧
        k.slot = slot ∧ k.vals = (List.range 512).map (fun j =>
          dot (segOf r) (fun i => dataW (s.pier n (s.phys n pier)).img i j) * (2 ^ getLe r 512 1 : Int))) ∧
      (t.cwy op.cwy).run.errs = (s.cwy op.cwy).run.errs ++ (if residue then [{ unit := .bay op.die bay }] else []) ∧
      (t.bay n).piers = (s.bay n).piers ∧ (t.bay n).cells = (s.bay n).cells))

/-- An op that is not the head of its die's stream, or whose die does not issue (no body runs, a stall holds it: R113,
R140, R141), changes nothing; one whose predicate is false is passed over by its stream and does nothing else (R142).
A Girder instruction runs only in a routine and under a true predicate register (R98); otherwise it changes nothing. -/
def Obligations.UnissuedCommandsHaveNoEffect : Prop :=
  (∀ (op : Op) (s : State), s.running →
    (∀ bay mask slot rec stride, PassedOver (.beat op bay mask slot rec stride) op (isBeat op bay mask slot rec stride) s) ∧
    (∀ bay mask, PassedOver (.ballast op bay mask) op (isBallast op 2 bay mask) s) ∧
    (∀ bay pier slot rec x, PassedOver (.wseg op bay pier slot rec x) op (isWseg op bay pier slot rec) s) ∧
    (∀ bay slot, PassedOver (.slotClear op bay slot) op (isSlot op bay 0 slot) s) ∧
    (∀ bay slot off, PassedOver (.slotDrain op bay slot off) op (isDrain op bay slot off) s) ∧
    (∀ bay slot dst x, PassedOver (.slotSend op bay slot dst x) op (isSend op bay slot dst) s) ∧
    (∀ bay slot, PassedOver (.combine op bay slot) op (isCombine op bay slot) s) ∧
    (∀ g r a b k f e, PassedOver (.girder op g r a b k f e) op (isGirder op g r a b) s) ∧
    (∀ x y n l, PassedOver (.move op x y n l) op (isMove op x y n) s) ∧
    (∀ h l n e x, PassedOver (.hbmRd op h l n e x) op (isHbm op 8 h l n) s) ∧
    (∀ h l n x, PassedOver (.hbmWr op h l n x) op (isHbm op 9 h l n) s) ∧
    (∀ a p n h l e x, PassedOver (.kvRd op a p n h l e x) op (isKvRd op a p n h l) s) ∧
    (∀ a k h l x, PassedOver (.kvStage op a k h l x) op (isKvStage op a k h l) s) ∧
    (∀ d m r g a n, PassedOver (.plSend op d m r g a n) op (isPlSend op d m r g a n) s) ∧
    (∀ l, PassedOver (.wait op l) op (isWait op l) s) ∧ (∀ sel, PassedOver (.keystone op sel) op (isKeystone op) s)) ∧
  (∀ (i : GInstr) (s : State), s.running → s.girRuns i = false →
    (∀ u, NoEffect (.vfmaBf16 i u) s ∧ NoEffect (.vfmaF32 i u) s ∧ (∀ a, NoEffect (.vdotI8 i a u) s) ∧ NoEffect (.vex2 i u) s ∧
      NoEffect (.vrcp i u) s ∧ NoEffect (.vrsq i u) s ∧ NoEffect (.smul i u) s) ∧
    (∀ f u, NoEffect (.valu i f u) s) ∧ (∀ f u, NoEffect (.salu i f u) s) ∧ (∀ f u, NoEffect (.vmax i f u) s) ∧
    (∀ r u, NoEffect (.vreq i r u) s) ∧ (∀ f k n sl u, NoEffect (.vtopk i f k n sl u) s) ∧ (∀ o t, NoEffect (.vld i o t) s) ∧
    (∀ o t, NoEffect (.vst i o t) s) ∧ (∀ g o t, NoEffect (.vrld i g o t) s) ∧ (∀ w n, NoEffect (.loop i w n) s))

/-- CONVERSION_SLOT (R58 to R61, R29, R31): the readings of slot m, trimmed and clamped, join the oldest beat of the Pier
that lacks them; a beat with all its codes is repaired, and one that R30 covers keeps the bound of R229 (log entry
167). Readings for which no beat waits, or of a die whose clocks stopped (R291), are dropped. Where nothing is
reported against the readout, a fine value lies within half a step of the exact target inside the converter's range
(R60), for the charge that the drive of R53 leaves at the transfer. BEAT_VERDICT (R67, R227, R230 to R232): the oldest
beat with all its codes gets its verdict on a column drawn from the device's random source; a failed check of the four
kinds is an integrity error of the Pier that carries the bitmap of the failed checks, a residue mismatch one of the
Bay, and only then is one recorded (on a die whose clocks run). -/
def Obligations.ConversionsFillBeatsAndAreJudged : Prop :=
  ((∀ (span bay phys m : Nat) (raw : List Int) (faulty : Bool) (s : State), s.running →
    let n := bayNo span bay
    (s.dieOn span = false → NoEffect (.conversionSlot span bay phys m raw faulty) s) ∧
    (∀ i b, s.dieOn span = true → (tgetD (s.bay n).beats phys []).findIdx? (fun b => (tget b.code m).isNone) = some i →
      (tgetD (s.bay n).beats phys [])[i]? = some b →
      let a := addSlot (s.pier n phys).img (s.bayMode n) m raw (faulty || !s.readoutSound n phys) b
      let c := if a.full then a.repair (s.pier n phys).img (s.bayMode n) else a
      Goes (.conversionSlot span bay phys m raw faulty) s (fun t =>
        ∃ b' : Beat, tgetD (t.bay n).beats phys [] = (tgetD (s.bay n).beats phys []).set i b' ∧
          b'.code = c.code ∧ b'.fine = c.fine ∧ b'.repaired = c.repaired ∧ b'.start = b.start ∧ b'.drive = b.drive)) ∧
    ((tgetD (s.bay n).beats phys []).findIdx? (fun b => (tget b.code m).isNone) = none →
      NoEffect (.conversionSlot span bay phys m raw faulty) s)) ∧
  (∀ (mode sh : Nat) (y t : Int), loOf mode * 2 ^ sh ≤ y → 8 * y ≤ (8 * hiOf mode + 7) * 2 ^ sh →
    8 * y - 4 * 2 ^ sh < soundFine mode y sh t * 2 ^ sh ∧ soundFine mode y sh t * 2 ^ sh < 8 * y + 4 * 2 ^ sh)) ∧
  (∀ (span bay phys i : Nat) (residue : Bool) (b : Beat) (s : State), s.running → s.dieOn span = true →
    let n := bayNo span bay
    let fails := failedChecks (s.pier n phys).img (s.bayMode n) b (leNat ((List.range 2).map (Config.random s.draws)) % 512)
    (tgetD (s.bay n).beats phys []).findIdx? (fun b => b.full && !b.verdict) = some i →
    (tgetD (s.bay n).beats phys [])[i]? = some b →
    Goes (.beatVerdict span bay phys residue) s (fun t =>
      tgetD (t.bay n).beats phys [] = (tgetD (s.bay n).beats phys []).set i { b with verdict := true } ∧ t.draws = s.draws + 1 ∧
      (t.cwy b.cwy).run.errs = (s.cwy b.cwy).run.errs ++ (if residue then [{ unit := .bay span bay }] else []) ++
        (if fails = 0 then [] else [ErrRec.mk (.pier span bay phys) fails])))

/-- SLOT_APPLY (R81, R82, R34, R85): the contributions due in the cycle are added, those of one slot as one saturating
sum; where they name more than two slots the two lowest are served, the rest discarded, and the Bay has an integrity
error. The saturations join the count of the admission slot, and a residue mismatch that the unit reports for a cell
added to, and not saturated, is an integrity error too. A clear of the cycle, or the clear of a slot read in it,
empties the slot and leaves every other (R83). A die whose clocks stopped applies nothing (R291). COMBINE opens the
combine port of its Bay for a slot (R87); a flit of values that is under way and arrives then is added two cycles
later, flit by flit; flits 32 to 34 bring the residues, and the last of the 35 closes the port and has the block
judged once: a failed CRC on its way is an integrity error of that link (a failed Pelind frame has had its own), else
a residue that differs from its value is one of the Bay. With no combine open, or with no such flit under way, an
arrival has no effect. -/
def Obligations.SlotsAddWhatIsDue : Prop :=
  ((∀ (span bay t : Nat) (mismatch : List Nat) (s : State), s.running → s.dieOn span = false → NoEffect (.slotApply span bay t mismatch) s) ∧
  ∀ (span bay t : Nat) (mismatch : List Nat) (s : State), s.running → s.dieOn span = true →
    let n := bayNo span bay
    let y := s.bay n
    y.beats = [] →
    (∀ x : Contrib, y.contribs = [x] → x.due = t → x.slot < 32 → y.clears = [] → y.lastRead = none →
      Goes (.slotApply span bay t mismatch) s (fun u =>
        let r := addToSlot x.slot [x] y.cells
        (u.bay n).cells = r.1 ∧ (u.bay n).contribs = [] ∧
        (u.bay n).log = { cyc := t, pre := y.cells, adds := [x], cleared := [], sats := r.2 } ∧
        (x.aslot ≠ 0xFFFF → (tgetD (u.cwy x.cwy).run.counts x.aslot {}).unrep =
          (tgetD (s.cwy x.cwy).run.counts x.aslot {}).unrep + r.2.length) ∧
        (u.cwy x.cwy).run.errs = (s.cwy x.cwy).run.errs ++
          (if ((u.bay n).mismatched t mismatch).isSome then [{ unit := .bay span bay }] else []))) ∧
    (∀ x l, y.contribs = x :: l → (∀ c ∈ y.contribs, c.due = t) → y.clears = [] → y.lastRead = none → mismatch = [] →
      Goes (.slotApply span bay t mismatch) s (fun u =>
        let used := (slotsOf y.contribs).take 2
        (u.bay n).cells = used.foldl (fun cells m => (addToSlot m (y.contribs.filter (fun c => c.slot == m)) cells).1) y.cells ∧
        (∀ m j, m ∉ used → j < 512 → tgetD (u.bay n).cells (cellNo m j) {} = tgetD y.cells (cellNo m j) {}) ∧
        (u.bay n).contribs = [] ∧ (∀ b, b ≠ n → u.bay b = s.bay b) ∧
        (u.cwy x.cwy).run.errs = (s.cwy x.cwy).run.errs ++
          (if 2 < (slotsOf y.contribs).length then [{ unit := .bay span bay }] else []))) ∧
    (∀ slot, y.contribs = [] → (y.clears = [(slot, t)] ∧ y.lastRead = none) ∨ (y.clears = [] ∧ y.lastRead = some (slot, t) ∧ y.log.cyc < t) →
      Goes (.slotApply span bay t mismatch) s (fun u =>
        (u.bay n).clears = [] ∧ u.cwys = s.cwys ∧
        (∀ j < 512, tgetD (u.bay n).cells (cellNo slot j) {} = {}) ∧
        (∀ m j, m ≠ slot → j < 512 → tgetD (u.bay n).cells (cellNo m j) {} = tgetD y.cells (cellNo m j) {})))) ∧
  ((∀ (op : Op) (bay slot : Nat) (s : State), s.running → s.issues op (isCombine op bay slot) = true →
    Goes (.combine op bay slot) s (fun t =>
      t.bay (bayNo op.die bay) = { s.bay (bayNo op.die bay) with
        combine := some { slot := slot, start := s.opTime op, cwy := op.cwy, layer := op.layer }, rxVals := [], rxErr := none } ∧
      (∀ b, b ≠ bayNo op.die bay → t.bay b = s.bay b))) ∧
  (∀ (span bay u f : Nat) (k : Combine) (s : State), s.running → s.dieOn span = true →
    (s.bay (bayNo span bay)).combine = some k →
    s.dues (bayNo span bay) u = [] → (s.cwy k.cwy).flights = [] →
    let y := s.bay (bayNo span bay)
    (∀ x, y.inbound.find? (fun x => x.f == f && x.due == u) = some x →
      let err := if y.rxErr.isSome then y.rxErr else x.bad
      let res := ((List.range 64).zip (slice x.data 0 64)).foldl (fun a e => tset a (512 + 64 * (f - 32) + e.1) (e.2.toNat : Int)) y.rxVals
      (f < 32 → Goes (.partialSumFlitArrival span bay u f) s (fun t =>
        (t.bay (bayNo span bay)).contribs = y.contribs ++
          [{ due := u + 2, col0 := 16 * f, slot := k.slot, aslot := y.combineSlot x k.slot, cwy := k.cwy, layer := k.layer, vals := flitVals x.data }] ∧
        (∀ i < 16, tgetD (t.bay (bayNo span bay)).rxVals (16 * f + i) 0 = (flitVals x.data).getD i 0) ∧
        (t.bay (bayNo span bay)).combine = some k ∧ (t.bay (bayNo span bay)).inbound = y.inbound.erase x ∧
        (t.bay (bayNo span bay)).rxErr = err ∧ t.cwys = s.cwys)) ∧
      (f = 32 ∨ f = 33 → Goes (.partialSumFlitArrival span bay u f) s (fun t =>
        t = s.modBay (bayNo span bay) (fun y => { y with inbound := y.inbound.erase x, rxErr := err, rxVals := res }))) ∧
      (f = 34 → Goes (.partialSumFlitArrival span bay u f) s (fun t =>
        (t.bay (bayNo span bay)).combine = none ∧ (t.bay (bayNo span bay)).contribs = y.contribs ∧
        (t.cwy k.cwy).run.errs = (s.cwy k.cwy).run.errs ++ (match err with
          | some (link, true) => [{ unit := link }]
          | some (_, false) => []
          | none => if blockMismatch res then [{ unit := .bay span bay }] else [])))) ∧
    (y.inbound.find? (fun x => x.f == f && x.due == u) = none → NoEffect (.partialSumFlitArrival span bay u f) s)) ∧
  (∀ (span bay u f : Nat) (s : State), s.running → (s.bay (bayNo span bay)).combine = none →
    NoEffect (.partialSumFlitArrival span bay u f) s))

/-- SLOT clear (R83, R84, Table 6.11) waits for the additions of the cycle before; one whose cycle the corrector has
applied already empties the slot at once; one that meets a drain or send of its slot in the same cycle is an integrity
error of the Bay and leaves the slot to that read. SLOT drain and send (R83, R84) with nothing due: the block of Table
4.5, values then packed residues, leaves flit by flit: to the group's Deck slice, to Abutment SRAM, or to a Bay's
combine port. No byte of a memory changes before the flits arrive, the slot is marked read, and a clear of that cycle
is an integrity error. On a busy send port neither is issued, which is one too. -/
def Obligations.SlotsClearAndLeaveAsBlocks : Prop :=
  (∀ (op : Op) (bay slot : Nat) (s : State), s.running → s.issues op (isSlot op bay 0 slot) = true →
    let n := bayNo op.die bay
    let y := s.bay n
    let t := s.opTime op
    (y.readIn t ≠ some slot → y.log.cyc ≠ t → Goes (.slotClear op bay slot) s (fun u =>
      u.bay n = { y with clears := y.clears ++ [(slot, t)] } ∧ (u.cwy op.cwy).run.errs = (s.cwy op.cwy).run.errs ∧
      (∀ b, b ≠ n → u.bay b = s.bay b) ∧ u.words = s.words ∧ u.girders = s.girders ∧ u.host = s.host)) ∧
    (y.readIn t ≠ some slot → y.log.cyc = t → y.log.adds.filter (fun c => c.slot == slot) = [] → Goes (.slotClear op bay slot) s (fun u =>
      (∀ j < 512, tgetD (u.bay n).cells (cellNo slot j) {} = {}) ∧
      (∀ m j, m ≠ slot → j < 512 → tgetD (u.bay n).cells (cellNo m j) {} = tgetD y.cells (cellNo m j) {}) ∧
      (u.cwy op.cwy).run.errs = (s.cwy op.cwy).run.errs)) ∧
    (y.readIn t = some slot → Goes (.slotClear op bay slot) s (fun u =>
      u.bays = s.bays ∧ (u.cwy op.cwy).run.errs = (s.cwy op.cwy).run.errs ++ [{ unit := .bay op.die bay }]))) ∧
  (∀ (op : Op) (bay slot : Nat) (s : State), s.running →
    let n := bayNo op.die bay
    let y := s.bay n
    let t := s.opTime op
    let b := blockBytes y.cells slot
    let read := fun (u : State) => (u.bay n).sendAt = some t ∧ (u.bay n).lastRead = some (slot, t) ∧ (u.bay n).cells = y.cells ∧
      u.deck = s.deck ∧ u.sram = s.sram ∧ u.hbm = s.hbm ∧ (u.cwy op.cwy).run.errs = (s.cwy op.cwy).run.errs ++
        (if y.clears.contains (slot, t) then [{ unit := .bay op.die bay }] else [])
    let busy := fun (u : State) => u.bays = s.bays ∧ (u.cwy op.cwy).flights = (s.cwy op.cwy).flights ∧
      (u.cwy op.cwy).run.errs = (s.cwy op.cwy).run.errs ++ [{ unit := .bay op.die bay }]
    (y.portBusy t = false → y.log.cyc ≠ t → y.cycleAdds (s.bayMode n) t = [] → s.dues n (t - 1) = [] →
      (∀ off, s.issues op (isDrain op bay slot off) = true → Goes (.slotDrain op bay slot off) s (fun u => read u ∧
        Launched op.cwy (streamIn (t + 4) b (.deck (deckAddr op.die (bay / 4 * 32768 + off % 32768))) []) s u)) ∧
      (∀ d a crc, s.issues op (isSend op bay slot (.sram d a)) = true → Goes (.slotSend op bay slot (.sram d a) crc) s (fun u => read u ∧
        Launched op.cwy (streamIn (t + routeLat (.group op.die (bay / 4)) (.abut d)) b (.sram (sramAddr d a)) (crossing op.die d crc)) s u)) ∧
      (∀ d m crc, s.issues op (isSend op bay slot (.bay d m)) = true → Goes (.slotSend op bay slot (.bay d m) crc) s (fun u => read u ∧
        (u.bay (bayNo d m)).inbound = (s.bay (bayNo d m)).inbound ++
          sendFlits (t + routeLat (.group op.die (bay / 4)) (.group d (m / 4))) b (y.ownerAfter (s.bayMode n) t slot) (crossing op.die d crc)))) ∧
    (y.portBusy t = true →
      (∀ off, s.issues op (isDrain op bay slot off) = true → Goes (.slotDrain op bay slot off) s busy) ∧
      (∀ dst crc, s.issues op (isSend op bay slot dst) = true → Goes (.slotSend op bay slot dst crc) s busy)))

/-! ### Girders (sections 2, 4 and 6) -/

/-- GIRDER on an idle Girder starts its routine two cycles after issue with its arguments in scalar registers 1 and 2; to
a busy Girder the op is not issued and the integrity error names the Girder (R147). Corrected errors of its storage
are counted, an uncorrectable one is an integrity error (R103), and so is a failed residue, comparison or list recheck
of what the routine computes (R102). A routine that merges attention partials leaves the finished tree merge (R97),
one that merges top-k lists the ranked list (R94), and a wide one the block of exact sums over the weights as read
(R100), or what a caught unit delivered, in its Deck slice in its last cycle (when its inputs are read and its result
stands is the model's choice, log entry 141). END stops the routine, and in any cycle but start plus declared length
that is an integrity error too. A unit that its residue, duplicate or recheck catches delivers what it delivers, word
by word from lane 0 on, and the Carriageway whose routine runs gets one integrity error that names the Girder (R102). -/
def Obligations.GirderRoutinesRunAndReportErrors : Prop :=
  ((∀ (op : Op) (g r a b fixed : Nat) (k : Kernel) (fail : GirFail) (s : State), s.running → s.issues op (isGirder op g r a b) = true →
    let n := girNo op.die g
    let start := s.opTime op + 2
    let v := (passOp op s).seen op.cwy start
    let stored := fun (out : Nat) (bs : Bytes) => blockIn (start + s.routineLen op.cwy op.die g r) (delivered fail bs) (.deck (sliceAddr op.die g out))
    let errs : List ErrRec := (if fail.ecc then [{ unit := .girder op.die g }] else []) ++ (if fail.check.isSome then [{ unit := .girder op.die g }] else [])
    ((s.girder n).run = none → Goes (.girder op g r a b k fixed fail) s (fun t =>
      (t.girder n).run = some { cwy := op.cwy, layer := op.layer, start := start, len := s.routineLen op.cwy op.die g r } ∧
      tget (t.girder n).sreg 1 = some a ∧ tget (t.girder n).sreg 2 = some b ∧ (t.girder n).fixed = (s.girder n).fixed + fixed ∧
      (∀ m, m ≠ n → t.girder m = s.girder m) ∧ t.bays = s.bays ∧ t.deck = s.deck ∧
      ((∀ y p rec out, k ≠ .wide y p rec out) → (t.cwy op.cwy).run.errs = (s.cwy op.cwy).run.errs ++ errs) ∧
      (k = .other → (t.cwy op.cwy).flights = (s.cwy op.cwy).flights) ∧
      (∀ parts out, k = .lse parts out →
        let fv := fun i => Config.freeValue (s.draws + i) % 2 ^ 32
        Launched op.cwy (stored out (bytesOfWords (lseFinish (fun i => fv (396 * parts.length + i))
          (lseTree fv parts.length (parts.map (fun u => v.partialAt op.cwy (sliceAddr op.die g u))))))) s t) ∧
      (∀ fmt m parts out, k = .topk fmt m parts out →
        let l := (parts.flatMap (fun u => listOf (v.deckRead op.cwy (sliceAddr op.die g u) (16 + 16 * 64)))).foldl (fun a e => insertEntry fmt e a) []
        Launched op.cwy (stored out (listBytes fmt (clampN m 1 64) (l.take (clampN m 1 64)))) s t) ∧
      (∀ y p rec out, k = .wide y p rec out →
        (s.shadow (bayNo op.die y) p = none → (t.cwy op.cwy).flights = (s.cwy op.cwy).flights) ∧
        (∀ c z x, s.shadow (bayNo op.die y) p = some (c, z, x) →
          let crc := fail.read.crc.filter (fun e => decide (64 * e.flit < weightLen))
          let ecc := fail.read.ecc.filter (fun e => decide (64 * e.1 < weightLen))
          let w := patch (memSlice (v.asRead ecc (fun i => some (x + 64 * i))).hbm x imageLen) crc
          Launched op.cwy (stored out (valueBlock (wideVals w (v.segRecord op.cwy op.die y rec))).1) s t ∧
          (t.cwy op.cwy).run.errs = (s.cwy op.cwy).run.errs ++ errs ++ crc.map (fun e => ErrRec.mk (.via e.link) 0) ++
            (badFlits ecc).map (fun _ => ErrRec.mk (dieScope op.die) 0))))) ∧
    ((s.girder n).run ≠ none → Goes (.girder op g r a b k fixed fail) s (fun t =>
      t.girders = s.girders ∧ (t.cwy op.cwy).run.errs = (s.cwy op.cwy).run.errs ++ [{ unit := .girder op.die g }]))) ∧
  (∀ (span g u : Nat) (x : GRun) (s : State), s.running → (s.girder (girNo span g)).run = some x →
    Goes (.endRoutine span g u) s (fun t =>
      (t.girder (girNo span g)).run = none ∧
      (t.cwy x.cwy).run.errs = (s.cwy x.cwy).run.errs ++ (if u = x.start + x.len then [] else [{ unit := .girder span g }]))) ∧
  (∀ (span g u : Nat) (s : State), s.running → (s.girder (girNo span g)).run = none → NoEffect (.endRoutine span g u) s)) ∧
  (∀ (i : GInstr) (d : List Nat) (s : State), s.running → s.girRuns i = true →
    let n := girNo i.span i.girder
    let x := s.girder n
    let caught := fun (t : State) => (t.cwy (s.girCwy i)).run.errs = (s.cwy (s.girCwy i)).run.errs ++ [{ unit := .girder i.span i.girder }] ∧
      (∀ m, m ≠ n → t.girder m = s.girder m) ∧ t.bays = s.bays ∧ t.words = s.words
    let lanes := fun (t : State) => caught t ∧ t.girder n = x.setWords i.vd (d.take 128)
    let scalar := fun (t : State) => caught t ∧ t.girder n = { x with sreg := tset x.sreg (i.vd % 32) (d.headD 0 % 2 ^ 64) }
    (∀ f, Goes (.valu i f (.caught d)) s lanes) ∧ (∀ f, Goes (.vmax i f (.caught d)) s lanes) ∧
    Goes (.vfmaBf16 i (.caught d)) s lanes ∧ Goes (.vfmaF32 i (.caught d)) s lanes ∧ (∀ a, Goes (.vdotI8 i a (.caught d)) s lanes) ∧
    Goes (.vex2 i (.caught d)) s lanes ∧ Goes (.vrcp i (.caught d)) s lanes ∧ Goes (.vrsq i (.caught d)) s lanes ∧
    Goes (.smul i (.caught d)) s scalar ∧ (∀ f, (∀ p, f ≠ .setPred p) → Goes (.salu i f (.caught d)) s scalar) ∧
    (∀ p, Goes (.salu i (.setPred p) (.caught d)) s (fun t => caught t ∧
      t.girder n = { x with pred := tset x.pred (p % 8) (d.headD 0 == Config.cmpWord true % 2 ^ 64) })) ∧
    (∀ fmt k fresh slot, 1 ≤ k → k ≤ 64 → Goes (.vtopk i fmt k fresh slot (.caught d)) s (fun t => caught t ∧
      t.girder n = x.setWords i.vd (d.take (4 + 4 * k)))) ∧
    (∀ r, Goes (.vreq i r (.caught d)) s (fun t =>
      (t.cwy (s.girCwy i)).run.errs = (s.cwy (s.girCwy i)).run.errs ++ [{ unit := .girder i.span i.girder }] ∧
      (t.girder n).vreg = (x.setWords i.vd (d.take 16)).vreg)))

/-- The vector instructions of Table 6.13 on 128 lanes (R95 to R99): VFMA.BF16 and VFMA.F32 round once, VDOT.I8 is exact,
and where it serves a result of section 2 it saturates (R34) and each saturation joins the count of the admission
slot; VALU and VMAX work lane by lane, and VEX2, VRCP and VRSQ take va; where the spec states no result the lane holds
a free value (log entry 43). That a BF16 operand is the low half of its lane word is the model's choice (log entry
186), and that VDOT.I8 saturates its inference (log entry 45). -/
def Obligations.VectorInstructionsComputeEachLane : Prop :=
  ∀ (i : GInstr) (s : State), s.running → s.girRuns i = true →
    let x := s.girder (girNo i.span i.girder)
    Goes (.vfmaBf16 i .sound) s (fun t => laneResult i s t (fun l =>
      fma (laneFree s 32 l) (decBf16 (x.lane i.va l)) (decBf16 (x.lane i.vb l)) (decF32 (x.lane i.vd l)))) ∧
    Goes (.vfmaF32 i .sound) s (fun t => laneResult i s t (fun l =>
      fma (laneFree s 32 l) (decF32 (x.lane i.va l)) (decF32 (x.lane i.vb l)) (decF32 (x.lane i.vd l)))) ∧
    (∀ a, Goes (.vdotI8 i (some a) .sound) s (fun t => laneResult i s t (fun l =>
      uint 32 (sat32 (dot4 (x.lane i.va l) (x.lane i.vb l) (x.lane i.vd l)))) ∧
      (a ≠ 0xFFFF → (tgetD (t.cwy (s.girCwy i)).run.counts a {}).unrep = (tgetD (s.cwy (s.girCwy i)).run.counts a {}).unrep +
        ((List.range 128).filter (fun l => dot4 (x.lane i.va l) (x.lane i.vb l) (x.lane i.vd l) !=
          sat32 (dot4 (x.lane i.va l) (x.lane i.vb l) (x.lane i.vd l)))).length))) ∧
    Goes (.vdotI8 i none .sound) s (fun t => laneResult i s t (fun l =>
      inBits 32 (laneFree s 32 l) (dot4 (x.lane i.va l) (x.lane i.vb l) (x.lane i.vd l)))) ∧
    (∀ f, Goes (.valu i f .sound) s (fun t => laneResult i s t (fun l => valuLane f (laneFree s 32 l) (x.lane i.va l) (x.lane i.vb l)))) ∧
    (∀ f, Goes (.vmax i f .sound) s (fun t => laneResult i s t (fun l => vmaxLane f (laneFree s 32 l) (x.lane i.va l) (x.lane i.vb l)))) ∧
    Goes (.vex2 i .sound) s (fun t => laneResult i s t (fun l => fpEx2 (laneFree s 32 l) (decF32 (x.lane i.va l)))) ∧
    Goes (.vrcp i .sound) s (fun t => laneResult i s t (fun l => fpRcp (laneFree s 32 l) (decF32 (x.lane i.va l)))) ∧
    Goes (.vrsq i .sound) s (fun t => laneResult i s t (fun l => fpRsq (laneFree s 32 l) (decF32 (x.lane i.va l))))

/-- VREQ (R36 to R39, R101) writes for its 16 numerators the clamped roundings with the carry handed from channel to
channel, at the shift of the segment for INT8S, or the BF16 roundings; it keeps the last carry, hands it to the next
Girder where it passes one on, and its clips join the request's count. VTOPK (R92, R93) leaves the list of Table 4.6
that holds the first k of the entries that stood there and the 16 new ones, in rank order, and a NaN key that enters
is a clip. That VREQ uses lanes 0 to 15 and a list stands in vector registers from vd on is the model's inference (log
entries 46 and 47); where an INT8S segment's numerators and shift stand, where an INT48 key has its upper bits, and
the lanes of VTOPK's keys are its choices (log entries 200 to 202), as is the low half of a lane for a BF16 result
(log entry 186). -/
def Obligations.RequantiseAndTopKWriteTheirLists : Prop :=
  ∀ (i : GInstr) (s : State), s.running → s.girRuns i = true →
    let n := girNo i.span i.girder
    let x := s.girder n
    let count := fun (t : State) (slot k : Nat) =>
      (tgetD (t.cwy (s.girCwy i)).run.counts slot {}).clips = (tgetD (s.cwy (s.girCwy i)).run.counts slot {}).clips + k
    (∀ r : ReqParams, Goes (.vreq i r .sound) s (fun t =>
      let ns := numers r ((List.range 16).map (fun l => x.lane i.va l))
      let shift := match r.seg with | some (vs, umax) => segShift r.h umax vs | none => if r.first then 0 else x.shift
      let carry := if r.first then 0 else x.carry
      let q := requant (if r.target = .int8s then r.h + shift else r.h) carry (ns.map (·.1))
      let bf := ns.map (fun e => toBf16 e.1 r.h)
      let last := if r.target = .bf16 then carry else q.2.1
      (∀ l < 16, (t.girder n).lane i.vd l = if r.target = .bf16 then (bf.map (·.1)).getD l 0 % 2 ^ 32 else uint 32 (q.1.getD l 0)) ∧
      (∀ v l, v % 64 ≠ i.vd % 64 → l < 128 → (t.girder n).lane v l = x.lane v l) ∧
      (t.girder n).carry = last ∧ (t.girder n).shift = shift ∧
      (∀ m, r.passTo = some m → (t.girder (girNo i.span m)).carry = last) ∧
      (∀ g, g ≠ n → (∀ m, r.passTo = some m → g ≠ girNo i.span m) → t.girder g = s.girder g) ∧
      count t r.slot ((ns.filter (·.2)).length + if r.target = .bf16 then (bf.filter (·.2)).length else q.2.2) ∧
      t.bays = s.bays ∧ t.words = s.words)) ∧
    (∀ fmt k fresh slot, 1 ≤ k → k ≤ 64 → Goes (.vtopk i fmt k fresh slot .sound) s (fun t =>
      let old := if fresh then [] else listOf (bytesOfWords ((List.range (4 + 4 * k)).map (fun w => x.lane (i.vd + w / 128) (w % 128))))
      let new := (List.range 16).map (fun l => (keyOf fmt x i.va l, x.lane i.vb l))
      t.girder n = x.setWords i.vd (wordsOf (listBytes fmt k ((new.foldl (fun a e => insertEntry fmt e a) old).take k))) ∧
      count t slot (new.filter (fun e => keyFp fmt e.1 == .nan)).length ∧ t.bays = s.bays ∧ t.words = s.words))

/-- VLD and VRLD load 512 bytes of the own and of another slice, as they stand in the cycle of the access, into vd; VST
puts the 128 words of va under way to the own slice, where they stand 6 cycles later (R98); no byte of a memory
changes before. The scalar core (Table 6.13, R98): SALU and SMUL write 64 bits of vd, a predicate set writes its
predicate register from a compare's result, LOOP arms the repetition. The word of a compare (Config.cmpWord) and the
free value of an overflow are the model's choices (log entries 44 and 43). -/
def Obligations.DeckAndScalarInstructions : Prop :=
  (∀ (i : GInstr) (off u : Nat) (s : State), s.running → s.girRuns i = true →
    let x := s.girder (girNo i.span i.girder)
    let c := s.girCwy i
    Goes (.vld i off u) s (fun t => t.girder (girNo i.span i.girder) =
        x.setWords i.vd (wordsOf ((s.seen c u).deckRead c (sliceAddr i.span i.girder off) 512)) ∧ t.deck = s.deck) ∧
    (∀ grp, Goes (.vrld i grp off u) s (fun t => t.girder (girNo i.span i.girder) =
        x.setWords i.vd (wordsOf ((s.seen c (u + groupLat i.span i.girder i.span grp)).deckRead c (sliceAddr i.span grp off) 512)) ∧
        t.deck = s.deck)) ∧
    Goes (.vst i off u) s (fun t => t.deck = s.deck ∧ t.girders = s.girders ∧ t.hbm = s.hbm ∧ t.sram = s.sram ∧
      Launched c (blockIn (u + 6) (bytesOfWords ((List.range 128).map (x.lane i.va))) (.deck (sliceAddr i.span i.girder off))) s t)) ∧
  (∀ (i : GInstr) (s : State), s.running → s.girRuns i = true →
    let x := s.girder (girNo i.span i.girder)
    (∀ f w, saluWord f (laneFree s 64 0) (x.sval i.va) (x.sval i.vb) = some w → Goes (.salu i f .sound) s (fun t =>
      t.girder (girNo i.span i.girder) = { x with sreg := tset x.sreg (i.vd % 32) (w % 2 ^ 64) })) ∧
    (∀ p, Goes (.salu i (.setPred p) .sound) s (fun t => t.girder (girNo i.span i.girder) =
      { x with pred := tset x.pred (p % 8) (x.sval i.va == Config.cmpWord true % 2 ^ 64) })) ∧
    Goes (.smul i .sound) s (fun t => t.girder (girNo i.span i.girder) =
      { x with sreg := tset x.sreg (i.vd % 32) (inBits 64 (laneFree s 64 0) (sext 64 (x.sval i.va) * sext 64 (x.sval i.vb)) % 2 ^ 64) }) ∧
    (∀ w n, Goes (.loop i w n) s (fun t => t.girder (girNo i.span i.girder) = { x with loop := some (w, n) } ∧ t.bays = s.bays)))

/-! ### Transfers, wait points and streams (sections 1, 4 to 6, 8) -/

/-- MOVE (R108, R141, R14, Tables 6.11 and 6.12): flit k leaves its source at t + k and arrives after the latency of the
route; no memory changes before. A flit under way alone that leaves and arrives by cycle T puts the bytes of its
source, as they stand when it leaves, at its destination and nowhere else; one whose CRC fails puts the bytes that
arrive there, and is an integrity error of its link. HBM_RD and HBM_WR inside the 384 GiB (R108, R226, R234, R11): a
read puts the carve-out's flits as they stand at issue, or those of the Spandrel window, under way to the local
address, flit k for t + 768 + k, owing what the host has still to write back (R360); its corrected errors are counted
for their stack, and a flit with an uncorrectable one is an integrity error of the scope that reads, its bytes free
values (log entry 212); which bank an address reaches is log entry 199; a write puts the local flits under way to the
carve-out, all visible 768 cycles after the last; those into the Spandrel window cross the Viaduct and write nothing
(R14). A flit that reaches HBM changes its 64 bytes alone, and none of an enabled Carriageway's container (R137). An
address that does not exist stops the model. -/
def Obligations.TransfersMoveTheirBytes : Prop :=
  ((∀ (op : Op) (src dst : Endpoint) (flits : Nat) (crc : List FlitFail) (s : State), s.running → s.issues op (isMove op src dst flits) = true →
    Goes (.move op src dst flits crc) s (fun t =>
      Launched op.cwy (streamOut (s.opTime op) (routeLat (endStop src) (endStop dst)) flits (endLoc src) (endLoc dst)
        (crossing (endFields src).1 (endFields dst).1 crc)) s t ∧
      t.deck = s.deck ∧ t.sram = s.sram ∧ t.hbm = s.hbm ∧ t.bays = s.bays ∧ (t.cwy op.cwy).run.errs = (s.cwy op.cwy).run.errs)) ∧
  (∀ (c T : Nat) (x : Flight) (l : Loc) (s : State), (s.cwy c).flights = [x] → x.src = some l → x.cyc + x.lat ≤ T →
    let bs := match x.crc with | some e => slice e.2 0 64 | none => s.bytesAt l
    let u := land c T s
    (∀ a, x.dst = .deck a → u.deck = memPut s.deck a bs ∧ u.sram = s.sram ∧ u.hbm = s.hbm ∧
      (memWf s.deck = true → ∀ b, b < a ∨ a + 64 ≤ b → memRead u.deck b = memRead s.deck b)) ∧
    (∀ a, x.dst = .sram a → u.sram = memPut s.sram a bs ∧ u.deck = s.deck ∧ u.hbm = s.hbm ∧
      (memWf s.sram = true → ∀ b, b < a ∨ a + 64 ≤ b → memRead u.sram b = memRead s.sram b)) ∧
    (∀ a f, x.dst = .port a f → u.deck = s.deck ∧ u.sram = s.sram ∧ u.hbm = s.hbm ∧
      ∃ y, (u.bay a).inbound = (s.bay a).inbound ++ [y] ∧ y.due = x.cyc + x.lat ∧ y.f = f % 35 ∧ y.data = bs) ∧
    ((∀ a f, x.dst ≠ .port a f) → (∀ d m r g f, x.dst ≠ .link d m r g f) →
      (u.cwy c).run.errs = (s.cwy c).run.errs ++ (match x.crc with | some e => [{ unit := .via e.1 }] | none => [])))) ∧
  ((∀ (op : Op) (hoff laddr flits : Nat) (s : State), s.running →
    let n := belowWindow hoff flits
    let base := s.carveBase op.cwy + 64 * hoff
    let t := s.opTime op
    let at_ := fun k => s.unitAddr op.cwy (hoff + k)
    let there := fun k => hbmIn (s.carveBase op.cwy + 64 * s.bankUnit op.cwy 1 (hoff + k)) 64 = true
    (s.issues op (isHbm op 8 hoff laddr flits) = true → (∀ k < n, there k) → ∀ ecc crc,
      Goes (.hbmRd op hoff laddr flits ecc crc) s (fun u => u.hbm = s.hbm ∧ u.deck = s.deck ∧ u.sram = s.sram ∧
        (let v := snoopUnits op.cwy hoff flits (passOp op s)
        Launched op.cwy (v.withOwed at_ (streamIn (t + 768) (((v.seen op.cwy t).asRead ecc at_).hbmRdBytes op.cwy hoff flits)
          (localLoc op.die laddr) crc)) s u) ∧
        (ecc = [] → u.hbmFixed = s.hbmFixed ∧ (u.cwy op.cwy).run.errs = (s.cwy op.cwy).run.errs) ∧
        (∀ k, ecc = [(k, true)] → (u.cwy op.cwy).run.errs = (s.cwy op.cwy).run.errs ++ [{ unit := dieScope op.die }]) ∧
        (∀ k, ecc = [(k, false)] → k < n → (u.cwy op.cwy).run.errs = (s.cwy op.cwy).run.errs ∧
          ∀ a, at_ k = some a → tgetD u.hbmFixed (stackOf a) 0 = tgetD s.hbmFixed (stackOf a) 0 + 1))) ∧
    (s.issues op (isHbm op 9 hoff laddr flits) = true → (∀ k < n, there k) → ∀ crc,
      Goes (.hbmWr op hoff laddr flits crc) s (fun u => u.hbm = s.hbm ∧ u.deck = s.deck ∧ u.sram = s.sram ∧
        let fs := (streamOut t 0 flits (localLoc op.die laddr) (.hbm base) crc).map (fun x => { x with lat := t + flits - 1 + 768 - x.cyc })
        Launched op.cwy (fs.take n ++ (fs.drop n).map (fun x => { x with dst := .sink })) s u)) ∧
    ((∃ k < n, ¬ there k) →
      (s.issues op (isHbm op 8 hoff laddr flits) = true → ∀ ecc crc,
        exec (.hbmRd op hoff laddr flits ecc crc) s = .fault (.hbmOutOfRange base)) ∧
      (s.issues op (isHbm op 9 hoff laddr flits) = true → ∀ crc,
        exec (.hbmWr op hoff laddr flits crc) s = .fault (.hbmOutOfRange base)))) ∧
  (∀ (c T a : Nat) (x : Flight) (l : Loc) (s : State), (s.cwy c).flights = [x] → x.src = some l → x.cyc + x.lat ≤ T → x.dst = .hbm a →
    let bs := match x.crc with | some e => slice e.2 0 64 | none => s.bytesAt l
    (s.containerHit a 64 = [] → bs.length = 64 → (land c T s).hbm = memPut s.hbm a bs ∧
      (memWf s.hbm = true → ∀ b, b < a ∨ a + 64 ≤ b → memRead (land c T s).hbm b = memRead s.hbm b)) ∧
    (s.containerHit a 64 ≠ [] → bs.length = 64 → (land c T s).hbm = s.hbm)))

/-- KV_RD (R194) puts 64 flits a page under way, flit k for t + 768 + k, a page of an empty slot as zero bytes (R145);
KV_STAGE (R191) puts the 256 bytes of an admitted token of a KV layer and head whose page this member holds under way
to the staging buffer, where they replace, flit by flit, an earlier entry of the same place; any other entry crosses
the Viaduct (R14) and is discarded (R145, R184). The far tier (R193, R201 to R205): a lapse of a paused request waits
for the next good seal while a body or its Keystone runs, or while the Carriageway is STOPPED, and otherwise, in a
barrier or a hold too, ends the request at once; each acknowledged block of a copy-out is ticked off; a restored block
that opens stands in its frame, one that does not is read once more and then leaves the request to be rebuilt; a block
of a page that another member holds has no bytes here, or without bytes it has failed there twice (the model's choice,
log entry 148; when a lapse waits is its inference, log entry 91); its write is dropped where it meets a running
container (R137); a visible write frees its open block. -/
def Obligations.KvPagesAndFarBlocksMove : Prop :=
  (∀ (op : Op) (aslot head laddr : Nat) (s : State), s.running →
    (∀ page pages crc, s.issues op (isKvRd op aslot page pages head laddr) = true →
      let at_ := fun k => s.kvFlit op.cwy aslot op.layer head (page + k / 64) (k % 64)
      let v := foldS ((List.range (64 * pages)).filterMap at_) (fun s a => hbmSnoop a 64 s) (passOp op s)
      ∀ ecc, Goes (.kvRd op aslot page pages head laddr ecc crc) s (fun t =>
      Launched op.cwy (v.withOwed at_ (streamIn (s.opTime op + 768) ((List.range pages).flatMap (fun k =>
        (((passOp op s).seen op.cwy (s.opTime op)).asRead ecc at_).kvPage op.cwy aslot op.layer head (page + k))) (localLoc op.die laddr) crc)) s t ∧
      (t.cwy op.cwy).run.errs = (s.cwy op.cwy).run.errs ++ (badFlits ecc).map (fun _ => ErrRec.mk (dieScope op.die) 0) ∧
      t.deck = s.deck ∧ t.hbm = s.hbm ∧ t.sram = s.sram)) ∧
    (s.admReq op.cwy aslot = none → ∀ page, s.kvPage op.cwy aslot op.layer head page = zeros 4096) ∧
    (∀ a tok crc, s.issues op (isKvStage op aslot tok head laddr) = true →
      (s.cwy op.cwy).run.adm.find? (fun a => a.slot == aslot) = some a → tok < a.tokens →
      (s.kvBlock op.cwy op.layer head).isSome = true → s.holds op.cwy ((a.first + tok) / 16) = true →
      Goes (.kvStage op aslot tok head laddr crc) s (fun t =>
        Launched op.cwy (streamOut (s.opTime op) 40 4 (localLoc op.die laddr) (.stage aslot tok op.layer head 0) crc) s t ∧
        t.hbm = s.hbm ∧ t.deck = s.deck ∧ t.reqs = s.reqs)) ∧
    (∀ a tok crc, s.issues op (isKvStage op aslot tok head laddr) = true →
      (s.cwy op.cwy).run.adm.find? (fun a => a.slot == aslot) = some a → a.tokens ≤ tok →
      Goes (.kvStage op aslot tok head laddr crc) s (fun t => Launched op.cwy (streamOut (s.opTime op) 40 4 (localLoc op.die laddr) .sink crc) s t ∧
        (t.cwy op.cwy).kv.staged = (s.cwy op.cwy).kv.staged)) ∧
    (∀ c T tok layer hd f bs x, (s.cwy c).flights = [x] → x.src = none → x.cyc ≤ T → x.dst = .stage aslot tok layer hd f → x.crc = none →
      x.data = bs → bs.length = 64 → f < 4 →
      let same := fun (e : Staged) => e.aslot == aslot && e.tok == tok && e.layer == layer && e.head == hd
      (∃ e, ((land c T s).cwy c).kv.staged.filter same = [e] ∧ slice e.data (64 * f) 64 = bs ∧
        ∀ g < 4, g ≠ f → ∀ o, (s.cwy c).kv.staged.find? same = some o → o.data.length = 256 → slice e.data (64 * g) 64 = slice o.data (64 * g) 64) ∧
      ((land c T s).cwy c).kv.staged.filter (fun e => !same e) = (s.cwy c).kv.staged.filter (fun e => !same e))) ∧
  (∀ (h : Nat) (q : Req) (s : State), s.running → s.req h = some q →
    (q.phase = .paused → q.isComp = false → q.resume = none → q.acting = none → q.ttlFrom + 100000 * q.ttl ≤ s.pw.refTicks →
      let busy := (s.cwy q.cwy).run.inBody = true ∨ ((s.cwy q.cwy).key.own ≠ none ∧ (s.cwy q.cwy).key.kind < 2)
      ((s.inState q.cwy [.running, .stopping] = true ∧ busy) ∨ s.inState q.cwy [.stopped] = true → Goes (.ttlLapse h) s (fun t => t.req h = some { q with lapsed := true } ∧ t.out = s.out)) ∧
      (s.inState q.cwy [.starting] = true ∨ (s.inState q.cwy [.running, .stopping] = true ∧ ¬ busy) →
        Goes (.ttlLapse h) s (fun t => t.req h = none ∧ t.hbm = s.hbm ∧ t.words = s.words))) ∧
    (s.pw.refTicks < q.ttlFrom + 100000 * q.ttl → NoEffect (.ttlLapse h) s) ∧
    (∀ page blk, q.copying = true → s.moves q.cwy = true → Goes (.copyOutBlockAck h page blk) s (fun t =>
      t.req h = some { q with copy := q.copy.filter (· != (page, blk)) } ∧ t.cwys = s.cwys)) ∧
    (∀ page blk, q.copying = false → NoEffect (.copyOutBlockAck h page blk) s) ∧
    (∀ page blk ct, q.restoring = true → q.lost = false → (page, blk) ∈ q.restore → s.moves q.cwy = true →
      (s.holds q.cwy page = false → Goes (.restoreBlockRead h page blk ct) s (fun t => t.hbm = s.hbm ∧
        t.req h = some (if ct = [] then { q with lost := true } else { q with restore := q.restore.filter (· != (page, blk)) }))) ∧
      (∀ e f ff, s.holds q.cwy page = true →
        (s.cwy q.cwy).kv.far.find? (fun e => e.1 == h && e.2.1 == page && e.2.2.1 == blk) = some e →
        tget q.newOf page = some f → tget q.farOf page = some ff → Goes (.restoreBlockRead h page blk ct) s (fun t =>
        match gcmOpen (s.cwy q.cwy).life.farKey (farIv e.2.2.2.1) (farAad s q.cwy h page blk) (slice ct 0 4096) e.2.2.2.2 with
        | some pt => t.hbm = (if s.containerHit (s.frameAddr q.cwy f blk) pt.length = [] then memPut s.hbm (s.frameAddr q.cwy f blk) pt else s.hbm) ∧
            t.req h = some { q with restore := q.restore.filter (· != (page, blk)) }
        | none => t.hbm = s.hbm ∧ t.req h = some (if (page, blk) ∈ q.retried then { q with lost := true }
            else { q with retried := (page, blk) :: q.retried })))) ∧
    (∀ page blk ct, q.restoring = false ∨ q.lost = true → NoEffect (.restoreBlockRead h page blk ct) s) ∧
    (∀ c b o, (s.cwy c).kv.open_[b]? = some o →
      (o.writing = true → Goes (.openBlockWriteVisible c b) s (fun t => (t.cwy c).kv = { (s.cwy c).kv with open_ := (s.cwy c).kv.open_.eraseIdx b })) ∧
      (o.writing = false → NoEffect (.openBlockWriteVisible c b) s)))

/-- PL_SEND (R328) queues the transfer on the port on which its direction leaves, behind those that wait there, and puts
its flits under way to that engine. -/
def Obligations.PlSendQueuesTheTransfer : Prop :=
  ∀ (op : Op) (dir m rxbuf tag addr flits p : Nat) (s : State), s.running → s.issues op (isPlSend op dir m rxbuf tag addr flits) = true →
    s.outPort op.cwy dir = some p →
    Goes (.plSend op dir m rxbuf tag addr flits) s (fun t =>
      (∃ x : Xfer, (t.port p).xfers = (s.port p).xfers ++ [x] ∧ x.cwy = op.cwy ∧ x.dir = dir ∧ x.dmember = m ∧ x.rxbuf = rxbuf ∧
        x.tag = tag ∧ x.addr = addr ∧ x.flits = flits ∧ x.die = op.die ∧ x.data = []) ∧
      Launched op.cwy (streamOut (s.opTime op) 0 flits (.sram (sramAddr op.die addr)) (.link dir m rxbuf tag 0) []) s t ∧
      (∀ q, q ≠ p → t.port q = s.port q) ∧ t.bays = s.bays ∧ t.words = s.words)

/-- Wait points (R113, R116): a WAIT passes when every arrival of its wait point, its own and those that the WAITs of its
cycle name on other dies (R146), is complete 8 cycles before its placed cycle; else every stream of the Carriageway
stalls on it; once the last named arrival has completed the streams resume in the mask phase of the placed cycle, at
least 8 cycles after it; at the wait limit the streams leave the body with a link error. STREAM_FETCH (R139, R140): a
block that is due enters the die's op buffer; one whose HBM word is uncorrectable records the error and the die issues
no more ops of the body; a flit whose CRC fails on the Viaduct enters as it arrived, and the error names its link
(R14). A block that is not due is not fetched; one beyond the sixteen that the buffer holds takes the place of the one
fetched longest ago (the model's choice, log entry 203). -/
def Obligations.WaitPointsAndFetchesOfStreams : Prop :=
  (∀ s : State, s.running →
    (∀ op l, s.issues op (isWait op l) = true → (s.cwy op.cwy).run.wait = none →
      let all := (l ++ (passOp op s).waitPoint op.cwy op.cyc).eraseDups
      let ok := fun a => ∃ x, s.arrived op.cwy a = some x ∧ x + 8 ≤ s.opTime op
      ((∀ a ∈ all, ok a) → exec (.wait op l) s = .next (passOp op s)) ∧
      ((∃ a ∈ all, ¬ ok a) → Goes (.wait op l) s (fun t => (t.cwy op.cwy).run.wait = some (op.cyc, all) ∧
        (t.cwy op.cwy).warm = (passOp op s).keptWarm op.cwy (s.opTime op)))) ∧
    (∀ c w l, (s.cwy c).run.wait = some (w, l) → (∀ a ∈ l, (s.arrived c a).isSome = true) →
      let placed := (s.cwy c).run.start + (s.cwy c).run.stall + w
      Goes (.waitRelease c) s (fun t => (t.cwy c).run.wait = none ∧ (t.cwy c).run.start + (t.cwy c).run.stall + w =
        max placed (phaseFrom ((l.filterMap (s.arrived c)).foldl max 0 + 8) (placed % 16)))) ∧
    (∀ c w l, (s.cwy c).run.wait = some (w, l) → (∃ a ∈ l, s.arrived c a = none) → NoEffect (.waitRelease c) s) ∧
    (∀ c d w l, (s.cwy c).run.wait = some (w, l) → Goes (.waitLimitExpiry c d) s (fun t =>
      (t.cwy c).run.wait = none ∧ (t.cwy c).run.leaving = true ∧
      (t.cwy c).run.errs = (s.cwy c).run.errs ++ [ErrRec.mk (.dir ((s.portOf d).getD d)) 0]))) ∧
  (∀ (c : Nat) (die : Die) (block : Nat) (s : State), s.running →
    (s.fetchDue c die block = true →
      let ws := s.blockWords c die block
      let at_ := s.itinBase c + s.dirf c (s.cwy c).run.shape die 8 8 + 4096 * block
      Goes (.streamFetch c die block {}) s (fun t => (die, block, ws) ∈ (t.cwy c).run.buf ∧
        (t.cwy c).run.errs = (s.cwy c).run.errs ∧ (t.cwy c).run.deadDies = (s.cwy c).run.deadDies) ∧
      (∀ k, Goes (.streamFetch c die block { ecc := [(k, true)] }) s (fun t => (die, block, ws) ∈ (t.cwy c).run.buf ∧
        die ∈ (t.cwy c).run.deadDies ∧ (t.cwy c).run.errs = (s.cwy c).run.errs ++ [ErrRec.mk (dieScope die) 0])) ∧
      (∀ e : FlitFail, 4 * e.flit < ws.length → fetchCrosses die (at_ + 64 * e.flit) = true →
        Goes (.streamFetch c die block { crc := [e] }) s (fun t => (die, block, patchWords ws [e]) ∈ (t.cwy c).run.buf ∧
          (t.cwy c).run.errs = (s.cwy c).run.errs ++ [ErrRec.mk (.via e.link) 0] ∧ (t.cwy c).run.deadDies = (s.cwy c).run.deadDies))) ∧
    (s.fetchDue c die block = false → ∀ fail, NoEffect (.streamFetch c die block fail) s))

/-! ### The Keystone, bodies, ramp and ballast (sections 5, 7, 11, 14) -/

/-- KEYSTONE (R121): the op ends one die's stream; the last of the eight ends the body and the member forms its vote, of a
step Keystone. STREAM_DRAIN_DONE (R116, R140, R291): streams that left the body, or whose die issues no more or has no
clocks (that one counts as gone: the model's inference, log entry 184), end it too. Keystones without a body: an idle
one (R170), one for a takeover whose spares are complete (R261) and one at the end of a hold (R217) form the member's
vote of their kind. -/
def Obligations.KeystonesFormVotes : Prop :=
  ((∀ (op : Op) (sel : Tab (List Nat)) (s : State), s.running → s.issues op (isKeystone op) = true →
    ((∃ d < 8, d ≠ op.die ∧ d ∉ (s.cwy op.cwy).run.ended) → Goes (.keystone op sel) s (fun t =>
      (t.cwy op.cwy).run.ended = op.die :: (s.cwy op.cwy).run.ended ∧ (t.cwy op.cwy).run.inBody = true ∧ t.ports = s.ports ∧ t.bays = s.bays)) ∧
    ((∀ d < 8, d = op.die ∨ d ∈ (s.cwy op.cwy).run.ended) → Goes (.keystone op sel) s (fun t =>
      (t.cwy op.cwy).run.inBody = false ∧ (t.cwy op.cwy).key.own.isSome = true ∧ (t.cwy op.cwy).key.kind = 0))) ∧
  (∀ (c : Nat) (s : State), s.running → (s.cwy c).run.inBody = true → (s.cwy c).run.leaving = true ∨
      ((∃ d < 8, d ∈ (s.cwy c).run.deadDies ∨ s.dieOn d = false) ∧
        ∀ d < 8, (d ∈ (s.cwy c).run.deadDies ∨ s.dieOn d = false) ∨ d ∈ (s.cwy c).run.ended) →
    Goes (.streamDrainDone c) s (fun t => (t.cwy c).run.inBody = false ∧ (t.cwy c).key.own.isSome = true ∧ (t.cwy c).key.kind = 0))) ∧
  (∀ (c : Nat) (s : State), s.running →
    ((s.cwy c).key.idle = true → (s.cwy c).key.own = none → s.inState c [.running, .stopping] = true →
      Goes (.idleKeystone c) s (fun t => (t.cwy c).key.own.isSome = true ∧ (t.cwy c).key.kind = 1)) ∧
    ((s.cwy c).key.barrier = true → (s.cwy c).key.own = none → s.inState c [.running, .stopping] = true →
      s.ras.pend.any (fun f => s.unitUsed c f.unit && s.inBarrier f && !f.spareDone && f.spare.isSome) = false →
      Goes (.takeoverKeystone c) s (fun t => (t.cwy c).key.own.isSome = true ∧ (t.cwy c).key.kind = 2)) ∧
    (∀ l, (s.cwy c).w.holdLayer ≠ 255 → (s.cwy c).w.wstate = 4 →
      Goes (.holdDone c l) s (fun t => (t.cwy c).key.own.isSome = true ∧ (t.cwy c).key.kind = 3)))

/-- VOTE_FRAME_ARRIVAL (R351, R325, R342, R235) on a port that is UP: the payload of a frame of the child's stream whose
FEC, CRC-32C and tag hold joins its stream; a frame that fails makes the vote bad (nothing else of that child's vote
is merged: the model's choice, log entry 179); its header's last bit ends the child's stream. Nothing goes out before
the member's own vote is formed and every child's stream has ended; then the children's votes are merged with its own
(R350, Table 14.6), the merged vote goes up to its parent in Keystone frames, and the lead forms the seal from it
(R120, R241, R242, R154). KEYSTONE_TIMEOUT (R124) of a member that voted and has no release stops the Carriageway with
stop cause 2. That wait_limit runs from the forming of the member's own vote, where R124 counts from its sending, is
the model's choice (log entry 142). -/
def Obligations.VotesGatherOrTimeOut : Prop :=
  ((∀ (c child : Nat) (f : KeyFrame) (s : State), s.running → (s.port f.port).state = 2 → child ∈ s.children c → (s.cwy c).key.sent = false →
    child ∉ (s.cwy c).key.kidsDone → s.inState c [.running, .stopping] = true →
    let x := openKey c f s
    let b := x.1.1
    let k := (s.cwy c).key
    let done := fun (m : Nat) => m ∈ k.kidsDone ∨ m = child ∧ fLast b = true
    let waits := k.own = none ∨ ∃ m ∈ s.children c, ¬ done m
    (∀ pt, x.1.2 = some pt → s.keyStream c 2 child b = true → waits → Goes (.voteFrameArrival c child f) s (fun t =>
      tgetD (t.cwy c).key.kids child [] = tgetD k.kids child [] ++ [pt] ∧ (t.cwy c).key.kidBad = k.kidBad ∧
      (child ∈ (t.cwy c).key.kidsDone ↔ fLast b = true) ∧ (t.cwy c).key.sent = false ∧ t.bays = s.bays ∧ t.hbm = s.hbm)) ∧
    (x.1.2 = none → waits → Goes (.voteFrameArrival c child f) s (fun t =>
      child ∈ (t.cwy c).key.kidBad ∧ (t.cwy c).key.kids = k.kids ∧
      (child ∈ (t.cwy c).key.kidsDone ↔ fLast b = true) ∧ (t.cwy c).key.sent = false ∧ t.bays = s.bays ∧ t.hbm = s.hbm)) ∧
    (∀ pt o, x.1.2 = some pt → s.keyStream c 2 child b = true → k.own = some o → (∀ m ∈ s.children c, done m) →
      let u := x.2.modKey c (fun k => { k with kids := tmod k.kids child [] (· ++ [pt]), kidsDone := if fLast b then child :: k.kidsDone else k.kidsDone })
      let own := (u.foreseen c).formVote c k.kind o.holdDone
      let all := ((s.children c).filter (fun m => !k.kidBad.contains m)).foldl
        (fun v m => mergeVote v (voteOf (tgetD (u.cwy c).key.kids m []).flatten)) own
      let v := if k.kidBad = [] then all else { all with bad := true }
      Goes (.voteFrameArrival c child f) s (fun t =>
        (t.cwy c).key.sent = true ∧ (t.cwy c).key.merged = v ∧ (t.cwy c).key.own = some own ∧ (t.cwy c).run.errs = [] ∧
        (t.cwy c).run.voteErrs = (u.cwy c).run.errs ∧ t.bays = s.bays ∧ t.hbm = s.hbm ∧
        (∀ par d p, s.isLead c = false → s.parentOf c (s.self c) = some par → u.route c (u.here c) (u.memberCoord c par) = some d →
          u.outPort c d = some p → (t.port p).fwd = (u.port p).fwd ++
            (keyFrames u c 2 par (u.dirVc c d) (voteBytes v)).map (fun w => (c, u.closed c d, w))) ∧
        (s.isLead c = true → ∃ rel, (t.cwy c).key.release = some rel ∧ rel.good = !v.bad ∧
          rel.failed = (v.bad && k.kind == 0 && (s.cwy c).run.replay) ∧
          (rel.stop = true ↔ 3 ≤ v.stopCause ∨ v.bad = false ∧ v.stopOrder = true) ∧
          rel.step = (s.cwy c).life.step + (if v.bad = false ∧ k.kind = 0 then 1 else 0) ∧
          rel.aborts = (s.cwy c).life.aborts + (if rel.failed then 1 else 0) ∧ rel.gap = v.gap))) ∧
    (∀ pt, x.1.2 = some pt → s.keyStream c 2 child b = false → exec (.voteFrameArrival c child f) s = .next x.2)) ∧
  (∀ a b : Vote, let m := mergeVote a b
    m.bad = (a.bad || b.bad) ∧ m.stopOrder = (a.stopOrder || b.stopOrder) ∧ m.accRed = (a.accRed || b.accRed) ∧
    m.holdReq = (a.holdReq || b.holdReq) ∧ m.holdDone = (a.holdDone || b.holdDone) ∧ m.takeover = (a.takeover || b.takeover) ∧
    m.stopCause = max a.stopCause b.stopCause ∧ m.gap = max a.gap b.gap ∧ m.holdLayer = min a.holdLayer b.holdLayer ∧
    m.target = (if a.target = b.target then a.target else 0xFF) ∧ m.energy = a.energy + b.energy ∧
    (∀ n, n ∈ m.spReady ↔ n ∈ a.spReady ∧ n ∈ b.spReady))) ∧
  (∀ (c : Nat) (s : State), s.running →
    ((s.cwy c).key.own.isSome = true → (s.cwy c).key.release = none → (s.cwy c).life.state = .running →
      Goes (.keystoneTimeout c) s (fun t => (t.cwy c).run.inBody = false ∧ (t.cwy c).key.own = none ∧
        (s.ras.queue = [] → (t.cwy c).life.state = .stopped ∧ (t.cwy c).life.stopCause = 2 ∧
          (t.cwy c).run.errs = [] ∧ t.words = s.words ∧ t.ras.haltSafe = s.ras.haltSafe))) ∧
    ((s.cwy c).key.own = none → NoEffect (.keystoneTimeout c) s))

/-- RELEASE_FRAME_ARRIVAL (R351, R352): on a member that waits for a release, the payload of a sound frame takes its place
by its index, and one that fails is asked for again by a NAK in the control slot towards the parent (its index and
layout are the model's inference, log entries 180 and 125). The frame that completes the stream, or on the lead its
own release without a frame (the model's choice, log entry 58), takes effect: a STARTING Carriageway starts RUNNING at
the release's step; of a RUNNING or STOPPING one a good seal commits the step, admits the next body or grants the
hold, and glides (R122, R217, R299), a bad first run is replayed with the shape, admission, candidates and wide grants
that it had, over banks that did not flip (R123, R126), a failed replay ends the step's requests (R242, R243), and a
stop disables or stops it (R153, R154). The layers that stand for wide mode at a step are those whose last trigger
reaches it, the first of them granted within the budget (R43, R46). JOB_START (R134, R298): the lead of a STARTING
Carriageway that has ramped in, which it has only at the target frequency, with every other member named as ready (log
143), forms a good release of the current step; with a member missing it has no effect. -/
def Obligations.ReleasesTakeEffect : Prop :=
  ((∀ (c : Nat) (s : State), s.running →
    (∀ (f : KeyFrame) (acts : List KvAct) (parent : Nat), s.isLead c = false → s.parentOf c (s.self c) = some parent →
      (s.cwy c).key.sent = true ∨ (s.cwy c).life.state = .starting → (s.port f.port).state = 2 →
      let x := openKey c f s
      let b := x.1.1
      (∀ pt, x.1.2 = some pt → s.keyStream c 3 parent b = true → tget (s.cwy c).key.relFrames (fOff b) = none →
        let u := (passRelease c (fOff b) (fLast b) pt x.2).modKey c (fun k => { k with
          relFrames := tset k.relFrames (fOff b) pt, relLast := if fLast b then some (fOff b) else k.relLast, relNak := k.relNak.filter (· != fOff b) })
        ((u.cwy c).key.relStream = none → Goes (.releaseFrameArrival c (some f) acts) s (fun t =>
          tget (t.cwy c).key.relFrames (fOff b) = some pt ∧ (t.cwy c).run.errs = (s.cwy c).run.errs ∧
          (t.cwy c).life = (s.cwy c).life ∧ t.hbm = s.hbm)) ∧
        (∀ bs, (u.cwy c).key.relStream = some bs → Released (.releaseFrameArrival c (some f) acts) c (releaseOf bs) s u)) ∧
      (x.1.2 = none → Goes (.releaseFrameArrival c (some f) acts) s (fun t =>
        (t.cwy c).key.relFrames = (s.cwy c).key.relFrames ∧ (t.cwy c).run.errs = (s.cwy c).run.errs ∧
        (t.cwy c).life = (s.cwy c).life ∧ t.hbm = s.hbm ∧
        ∀ d p, x.2.route c (x.2.here c) (x.2.memberCoord c parent) = some d → x.2.outPort c d = some p →
          (t.port p).ctl = (x.2.port p).ctl ++ [leBytes 1 2 ++ leBytes 1 c ++ leBytes 2 (x.2.failedIndex c parent b)]))) ∧
    (∀ (rel : Release) (acts : List KvAct), s.isLead c = true → (s.cwy c).key.release = some rel →
      Released (.releaseFrameArrival c none acts) c rel s s ∧
      ((s.cwy c).life.state = .starting → rel.idle = true → rel.holdGranted = false → rel.adm = [] → s.liveReqs c = [] → (s.cwy c).kv.open_ = [] →
        Goes (.releaseFrameArrival c none acts) s (fun t =>
          (t.cwy c).life.state = .running ∧ (t.cwy c).life.step = rel.step ∧ (t.cwy c).life.aborts = rel.aborts ∧
          (t.cwy c).key.idle = true ∧ (t.cwy c).key.release = none)))) ∧
  (∀ (c n : Nat) (s : State),
    let w := wideTriggers c s
    let r := ((wideGrants c n w).cwy c).run
    r.grants ++ r.denials = (((w.cwy c).wide.filter (fun e => e.2.last.any (fun m => decide (n ≤ m)))).map (·.1)) ∧
    r.grants.length ≤ s.wideBudget c ∧ (r.denials ≠ [] → r.grants.length = s.wideBudget c) ∧
    (∀ l < s.layerCount c,
      (s.layerf c l 0 2 ≠ 0 ∧ s.layerf c l 0 2 ≤ tgetD (s.cwy c).run.layClips l 0) ∨
        (s.layerf c l 2 2 ≠ 0 ∧ s.layerf c l 2 2 ≤ (if l ∈ (s.cwy c).run.grants then 0 else tgetD (s.cwy c).run.laySats l 0)) →
      ∃ x, tget (w.cwy c).wide l = some x ∧ x.last = some ((s.cwy c).life.step + s.layerf c l 4 1)))) ∧
  (∀ (c : Nat) (others : List Nat) (s : State), s.running →
    ((s.cwy c).life.state = .starting → s.isLead c = true → s.rampedIn c = true → (s.cwy c).key.release = none →
      (∀ m < s.members c, m = s.self c ∨ m ∈ others) →
      Goes (.jobStart c others) s (fun t => ∃ r, (t.cwy c).key.release = some r ∧ r.good = true ∧ r.stop = false ∧ r.failed = false ∧
        r.step = (s.cwy c).life.step ∧ r.aborts = (s.cwy c).life.aborts ∧ (t.cwy c).life = (s.cwy c).life)) ∧
    ((s.cwy c).life.state = .starting → s.pw.curStep ≠ s.pw.target → NoEffect (.jobStart c others) s) ∧
    ((∃ m < s.members c, m ≠ s.self c ∧ m ∉ others) → NoEffect (.jobStart c others) s))

/-- BODY_START (R107, R112): a Carriageway that may start begins its body in the first cycle from the one given that is a
multiple of 16, with no stall; one that may not start is left as it is. BALLAST_TIMER (R129) between bodies and in a
wait stall gives a ballast beat to every warm Bay in service with a READY Pier that the running shapes leave free
(R111), and in a body that does not stall to those that still ramp out (R128); RAMP_WINDOW (R130) of a STARTING
Carriageway warms at most ramp_share further Bays and has ramped in when none is left cold, while Bays that it does
not beat ramp out; of a STOPPED or DISABLED one it lets that many go (R128). -/
def Obligations.BodiesStartAndBaysStayWarm : Prop :=
  (∀ (c u : Nat) (s : State), s.running →
    (s.mayStart c u = true → Goes (.bodyStart c u) s (fun t =>
      (t.cwy c).run.inBody = true ∧ (t.cwy c).run.start % 16 = 0 ∧ u ≤ (t.cwy c).run.start ∧ (t.cwy c).run.start < u + 16 ∧
      (t.cwy c).run.stall = 0 ∧ (t.cwy c).key.ready = false ∧ (t.cwy c).life.started = true ∧ t.bays = s.bays ∧ t.words = s.words)) ∧
    (s.mayStart c u = false → NoEffect (.bodyStart c u) s)) ∧
  (∀ (c u : Nat) (s : State), s.running →
    (let bs : List Nat := if (s.cwy c).run.inBody = true ∧ (s.cwy c).run.wait = none then (s.cwy c).warm.filter (fun b => !s.beats c b) else (s.cwy c).warm;
      Goes (.ballastTimer c u) s (fun t =>
        (∀ b ∈ bs, (s.freePier b u).isSome = true → (t.bay b).lastBeat = some u) ∧
        (∀ b, b ∉ bs → t.bay b = s.bay b) ∧ t.cwys = s.cwys)) ∧
    ((s.cwy c).run.inBody = false → (s.cwy c).life.state = .starting → Goes (.rampWindow c u) s (fun t =>
      ((t.cwy c).ramped = true ↔ ((s.beatenBays c).filter (fun b => !(s.cwy c).warm.contains b)).length ≤ s.rampShare c) ∧
      (∀ b < 1536, b ∈ (t.cwy c).warm ↔ b ∈ (s.cwy c).warm.filter (s.beats c) ∨
        b ∈ ((s.cwy c).warm.filter (fun b => !s.beats c b)).drop (s.rampShare c) ∨
        b ∈ ((s.beatenBays c).filter (fun b => !(s.cwy c).warm.contains b)).take (s.rampShare c)))) ∧
    ((s.cwy c).run.inBody = false → (s.cwy c).life.state = .stopped → Goes (.rampWindow c u) s (fun t =>
      (t.cwy c).warm = (s.cwy c).warm.drop (s.rampShare c) ∧ t.bays = s.bays)) ∧
    ((s.cwy c).run.inBody = false → (s.cwy c).life.state = .disabled → (s.cwy c).key = {} → Goes (.rampWindow c u) s (fun t =>
      (t.cwy c).warm = (s.cwy c).warm.drop (s.cwy c).share ∧ t.bays = s.bays)))

/-! ### Carriageways, tenants, rings and requests (sections 7 and 15) -/

/-- Orders of a Carriageway by the host in READY, with no order held (R152, R153, R155, R177): enable of a DISABLED one
starts its check; disable of a RUNNING one makes it STOPPING and of a STARTING or STOPPED one DISABLED; resume of a
STOPPED one starts a check, and with enable 1 of a RUNNING one is refused with reason 0x66. CONSISTENCY_CHECK_DONE
(R132, R152) with no order held: a check that passed takes the Carriageway to STARTING at step 0, or in halt-safe,
where no body may run, through it to STOPPED with cause 5 (R268; the model's inference, log entry 217); one that
failed takes it to DISABLED with its reason and status REFUSED; a host order that a fleet order has superseded (R176)
keeps its status. -/
def Obligations.LifecycleOrdersMoveTheCarriageway : Prop :=
  (∀ (c : Nat) (s : State), s.running → s.mgt.stage = 8 → s.holding = false → c < 64 →
    ((s.cwy c).life.state = .disabled → Goes (.cwyEnable .host c) s (fun t =>
      (t.cwy c).life.state = .checking ∧ (t.cwy c).life.enable = true ∧
      (∃ k, t.chain.check = some k ∧ k.kind = .enable c ∧ k.path = .host ∧ k.verdict = s.enableVerdict c false) ∧ t.words = s.words)) ∧
    ((s.cwy c).life.state = .running → Goes (.cwyDisable .host c) s (fun t =>
      (t.cwy c).life.state = .stopping ∧ (t.cwy c).life.enable = false ∧ (t.cwy c).life.orderStatus = 0 ∧ (t.cwy c).run = (s.cwy c).run)) ∧
    ((s.cwy c).life.state = .starting ∨ (s.cwy c).life.state = .stopped → Goes (.cwyDisable .host c) s (fun t =>
      (t.cwy c).life.state = .disabled ∧ (t.cwy c).life.stopCause = 1 ∧ (t.cwy c).life.enable = false ∧ (t.cwy c).jk = {})) ∧
    ((s.cwy c).life.state = .stopped → Goes (.cwyResume .host c true) s (fun t =>
      (t.cwy c).life.state = .checking ∧ ∃ k, t.chain.check = some k ∧ k.kind = .resume c ∧ k.path = .host ∧ k.verdict = s.enableVerdict c true)) ∧
    ((s.cwy c).life.state = .running → Goes (.cwyResume .host c true) s (fun t =>
      (t.cwy c).life.state = .running ∧ (t.cwy c).life.orderStatus = 5 ∧ (t.cwy c).life.reason = 0x66))) ∧
  (∀ (c : Nat) (k : Check) (s : State), s.running → s.chain.held = [] → s.chain.check = some k → k.kind = .enable c → k.path = .host →
    Goes .consistencyCheckDone s (fun t => t.chain.check = none ∧
      (if k.verdict = 0 then (t.cwy c).life.state = (if s.ras.haltSafe then .stopped else .starting) ∧
        (s.ras.haltSafe = true → (t.cwy c).life.stopCause = 5) ∧ (t.cwy c).life.step = 0 ∧ (t.cwy c).life.aborts = 0
      else (t.cwy c).life.state = .disabled) ∧
      (if k.mute then (t.cwy c).life.orderStatus = (s.cwy c).life.orderStatus
      else if k.verdict = 0 then (t.cwy c).life.orderStatus = 0
      else (t.cwy c).life.orderStatus = 5 ∧ (t.cwy c).life.reason = k.verdict)))

/-- GRANT_WRITE in READY with no order held (R150, R362): of a Carriageway that was DISABLED when the write arrived (R414)
the word's fields are stored, every protected granule that leaves its carve-out is zeroed and protected no longer, and
every byte of any other granule reads as before; otherwise no word changes. One of a Carriageway that does not exist
has no effect, nor has one before READY (R386); while a check runs on another Carriageway, or an order is held, it is
held behind it with its lock (R442). -/
def Obligations.GrantsAreWrittenOnlyWhileDisabled : Prop :=
  (∀ (p : Path) (c k : Nat) (w : Word) (s : State), s.running → s.mgt.stage ≠ 8 ∨ 64 ≤ c ∨ 16 ≤ k → NoEffect (.grantWrite p c k w) s) ∧
  (∀ (p : Path) (c k : Nat) (w : Word) (s : State), s.running → s.mgt.stage = 8 → s.holding = true → s.checked ≠ some c → c < 64 → k < 16 →
    Goes (.grantWrite p c k w) s (fun t => t.words = s.words ∧ t.hbm = s.hbm ∧
      t.chain.check = s.chain.check ∧ t.chain.held = s.chain.held ++
        [Held.mk (s.serSlot p) (.grantWrite p c k w) (if s.chain.slot.isSome then s.chain.locked else s.lockedOf (.grantWrite p c k w))])) ∧
  ∀ (p : Path) (c k : Nat) (w : Word) (s : State), s.running → s.mgt.stage = 8 → s.holding = false → c < 64 → k < 16 →
    let locked : Prop := (s.chain.slot = none ∧ (s.cwy c).life.state ≠ .disabled) ∨ (s.chain.slot ≠ none ∧ grantOff c k ∈ s.chain.locked)
    (¬ locked → Goes (.grantWrite p c k w) s (fun t =>
      let gone := fun (g : Nat) => g ∈ s.granules c ∧ g ∈ s.host.prot ∧ g ∉ t.granules c
      t.word (cwyBase c + 0x100 + 8 * k) = (w.toNat &&& grantMask k) ∧
      (∀ o, o ≠ cwyBase c + 0x100 + 8 * k → t.word o = s.word o) ∧ t.deck = s.deck ∧ t.sram = s.sram ∧
      (∀ g, g ∈ t.host.prot ↔ g ∈ s.host.prot ∧ ¬ gone g) ∧
      (memWf s.hbm = true → memWf t.hbm = true ∧ (∀ a, gone (a / 2 ^ 21) → memRead t.hbm a = 0) ∧
        ∀ a, ¬ gone (a / 2 ^ 21) → memRead t.hbm a = memRead s.hbm a))) ∧
    (locked → Goes (.grantWrite p c k w) s (fun t => t.words = s.words ∧ t.hbm = s.hbm ∧ t.host.prot = s.host.prot))

/-- Tenants by the host in READY with no order held (R157, R159): a bind to a DISABLED Carriageway takes effect at once,
to another it starts a binding check, whose end binds or gives the reason; an unbind of a tenant whose Carriageway
does not run destroys its keys at once, otherwise it waits for the next good seal. -/
def Obligations.TenantsBindAndUnbind : Prop :=
  ∀ (n : Nat) (s : State), s.running →
    (s.mgt.stage = 8 → s.holding = false → n < 1024 →
      ((s.tenant n).bound = false → (s.cwy (s.tenCwy n)).life.state = .disabled → Goes (.tenantBind n) s (fun t =>
        (t.tenant n).bound = true ∧ t.chain = s.chain ∧ t.words = s.words)) ∧
      ((s.tenant n).bound = false → (s.cwy (s.tenCwy n)).life.state ≠ .disabled → Goes (.tenantBind n) s (fun t =>
        t.chain.check = some { kind := .bind n, path := .host, verdict := s.bindVerdict n } ∧ t.tenants = s.tenants)) ∧
      ((s.tenant n).bound = true → (s.tenant n).unbinding = false → s.inState (s.tenCwy n) [.running, .stopping] = true →
        Goes (.tenantUnbind n) s (fun t => (t.tenant n).unbinding = true ∧ (t.tenant n).bound = true ∧ t.reqs = s.reqs)) ∧
      ((s.tenant n).bound = true → (s.tenant n).unbinding = false → s.inState (s.tenCwy n) [.running, .stopping] = false →
        Goes (.tenantUnbind n) s (fun t => (t.tenant n).bound = false ∧ (t.tenant n).modelKey = none ∧ (t.tenant n).spKey = none))) ∧
    (∀ v, s.chain.held = [] → s.chain.check = some { kind := .bind n, path := .host, verdict := v } → Goes .bindingCheckDone s (fun t =>
      t.chain.check = none ∧ if v = 0 then (t.tenant n).bound = true else (t.tenant n).reason = v))

/-- Ring states (R370): a sound configuration enables an OFF ring with its indices at 0 and asks for its doorbell line
(log 194), a bad one is reason 0x61; disable drains an ON ring, which is OFF when nothing is outstanding; a failed
access of an ON or draining ring is an ERROR with its cause, and completions that a failed CQ write left unwritten
wait in their reservations. Orders while a check runs are held and are not stated here. Doorbells (R366, R371 to R373,
R375): a snoop of a line held Shared, or a poll while polling, takes the two indices, or is ERROR cause 4 when they
overrun a ring; the mode changes to the one asked for, and every ON ring's line is asked for in it (log 194); a
completed descriptor read moves the head and its descriptors wait for validation. -/
def Obligations.RingsAndDoorbellsFollowTheirRules : Prop :=
  (∀ (r : Nat) (s : State), s.running →
    (r < 1088 → s.holding = false → (s.ring r).state = 0 → s.ringBad r = false → Goes (.ringEnable r) s (fun t =>
      t.ring r = { state := 1, enable := true, cause := (s.ring r).cause, reason := (s.ring r).reason, shared := !s.host.polling, awaits := true } ∧
      t.reqs = s.reqs ∧ t.words = s.words)) ∧
    (r < 1088 → s.holding = false → (s.ring r).state = 0 → s.ringBad r = true → Goes (.ringEnable r) s (fun t =>
      t.ring r = { s.ring r with reason := 0x61 } ∧ t.out = s.out)) ∧
    (r < 1088 → s.holding = false → (s.ring r).state = 1 → Goes (.ringDisable r) s (fun t =>
      t.ring r = { s.ring r with state := 2, reading := [], shared := false, awaits := false } ∧ t.reqs = s.reqs)) ∧
    ((s.ring r).state = 2 → (s.ring r).outstanding = 0 → Goes (.ringOff r) s (fun t => (t.ring r).state = 0 ∧ t.out = s.out)) ∧
    ((s.ring r).state ≠ 2 ∨ (s.ring r).outstanding ≠ 0 → NoEffect (.ringOff r) s) ∧
    (∀ cause n, (s.ring r).state = 1 ∨ (s.ring r).state = 2 → cause ≠ 1 → Goes (.ringAccessFailure r cause n) s (fun t =>
      t.ring r = { s.ring r with state := 3, cause := cause, reading := [], shared := false, awaits := false } ∧ t.reqs = s.reqs)) ∧
    (∀ n, (s.ring r).state = 1 ∨ (s.ring r).state = 2 → Goes (.ringAccessFailure r 1 n) s (fun t =>
      (t.ring r).state = 3 ∧ (t.ring r).cause = 1 ∧ (t.ring r).held = ((s.ring r).wrote.take n).reverse ++ (s.ring r).held ∧
      (t.ring r).outstanding = (s.ring r).outstanding + ((s.ring r).wrote.take n).length ∧ t.reqs = s.reqs)) ∧
    (∀ cause n, (s.ring r).state ≠ 1 → (s.ring r).state ≠ 2 → NoEffect (.ringAccessFailure r cause n) s)) ∧
  (∀ (r sq cq : Nat) (s : State), s.running →
    let x := s.ring r
    let after := fun (t : State) =>
      if 2 ^ s.sqLog r < (sq % 2 ^ 32 + 2 ^ 32 - x.sqHead) % 2 ^ 32 ∨ 2 ^ s.cqLog r < (x.cqTail + 2 ^ 32 - cq % 2 ^ 32) % 2 ^ 32 then
        (t.ring r).state = 3 ∧ (t.ring r).cause = 4
      else (t.ring r).state = 1 ∧ (t.ring r).sqTail = sq % 2 ^ 32 ∧ (t.ring r).cqHead = cq % 2 ^ 32 ∧ (t.ring r).sqHead = x.sqHead
    (x.state = 1 → s.host.polling = false → x.shared = true → Goes (.doorbellSnoop r sq cq) s (fun t => after t ∧ t.reqs = s.reqs)) ∧
    (x.state ≠ 1 ∨ s.host.polling = true ∨ x.shared = false → NoEffect (.doorbellSnoop r sq cq) s) ∧
    (x.state = 1 → s.host.polling = true → Goes (.doorbellPoll r sq cq) s (fun t => after t ∧ t.reqs = s.reqs)) ∧
    (x.state ≠ 1 ∨ s.host.polling = false → NoEffect (.doorbellPoll r sq cq) s) ∧
    (∀ l, s.host.polling ≠ s.wantPoll → Goes (.doorbellModeChange l) s (fun t => t.host.polling = s.wantPoll ∧ t.reqs = s.reqs ∧
      (l = [] → x.state = 1 → t.ring r = { x with shared := !s.wantPoll, awaits := true }))) ∧
    (∀ l, s.host.polling = s.wantPoll → NoEffect (.doorbellModeChange l) s) ∧
    (∀ descs i n rest, x.reading = (i, n) :: rest → Goes (.descriptorReadComplete r descs) s (fun t =>
      (t.ring r).sqHead = (x.sqHead + n) % 2 ^ 32 ∧ (t.ring r).outstanding = x.outstanding + n ∧
      (t.ring r).fetched = x.fetched ++ (List.range n).map (fun k => ((i + k) % 2 ^ 32, slice (descs.getD k []) 0 64)))) ∧
    (∀ descs, x.reading = [] → NoEffect (.descriptorReadComplete r descs) s))

/-- Validation (R438, R164): the oldest descriptor of a ring whose fields, tenant or ring fail a check is completed
REFUSED with the code of the first check that fails, and it is not acted on: beside the host interface, the outputs
and the count of validations nothing changes. One of a reserved kind is refused with 0x60 in the same way. -/
def Obligations.DescriptorsAreRefusedInOrder : Prop :=
  ∀ (r i : Nat) (d : Bytes) (rest : List (Nat × Bytes)) (f : ReadFail) (s : State), s.serves r → (s.ring r).fetched = (i, d) :: rest →
    (∀ (k : Nat) (c : Instr), (k, c) ∈ [(1, .submit r), (2, .cancel r), (3, .pause r), (4, .resume r), (5, .query r), (6, .fetchCert r),
        (7, if getLe d 1 1 = 1 then .loadWeightsKeyEnvelope ⟨r, f⟩ else .loadWeights r), (8, .replaceLayer r), (9, .loadSpandrel r),
        (10, .retireSpandrel r), (11, .hint r)] → getLe d 0 1 = k → s.descCode r k d ≠ 0 →
      Goes c s (fun t => Completes r i d k 5 (s.descCode r k d) 0 0 s t ∧ (t.ring r).fetched = rest ∧
        ∃ h o, t = { s with host := h, out := o, nOrders := s.nOrders + 1 })) ∧
    (getLe d 0 1 < 1 ∨ 11 < getLe d 0 1 → Goes (.reservedKind r) s (fun t =>
      Completes r i d (getLe d 0 1) 5 0x60 0 0 s t ∧ (t.ring r).fetched = rest ∧
      ∃ h o, t = { s with host := h, out := o, nOrders := s.nOrders + 1 }))

/-- Orders on requests (R165, R175, R313, R380): an accepted SUBMIT is a QUEUED request with the lowest free handle (the
model's choice, log entry 76) and the next sequence number, a refused one completes with the first code of R165;
CANCEL, PAUSE and RESUME of a live request become pending, of an unknown tag are refused with 0x62; QUERY answers the
committed phase, generated count and sequence number; HINT is noted. -/
def Obligations.OrdersOnRequestsTakeTheirPlace : Prop :=
  ∀ (r i : Nat) (d : Bytes) (rest : List (Nat × Bytes)) (s : State), s.serves r → (s.ring r).fetched = (i, d) :: rest →
    let o := s.ringOwner r
    (getLe d 0 1 = 1 → s.descCode r 1 d = 0 →
      (s.submitCode (s.tenCwy o) o d ≠ 0 → Goes (.submit r) s (fun t =>
        Completes r i d 1 5 (s.submitCode (s.tenCwy o) o d) 0 0 s t ∧ t.reqs = s.reqs)) ∧
      (s.submitCode (s.tenCwy o) o d = 0 → fld (getLe d 1 1) 2 2 = 0 → Goes (.submit r) s (fun t =>
        (∃ q : Req, t.req (lowestFree (s.reqs.map (·.1))) = some q ∧ q.phase = .queued ∧ q.cwy = s.tenCwy o ∧ q.tenant = o ∧
          q.seq = (s.cwy (s.tenCwy o)).life.seq ∧ q.par.tag = slice d 8 8 ∧ q.par.promptLen = getLe d 24 4 ∧ q.par.maxNew = getLe d 28 4 ∧
          q.gen = [] ∧ q.len = 0) ∧
        (t.cwy (s.tenCwy o)).life.seq = (s.cwy (s.tenCwy o)).life.seq + 1 ∧ (t.ring r).cqTail = (s.ring r).cqTail))) ∧
    (∀ k c, (k, c) ∈ [(2, Instr.cancel r), (3, .pause r), (4, .resume r), (5, .query r)] → getLe d 0 1 = k → s.descCode r k d = 0 →
      s.tagged o (slice d 8 8) = none → Goes c s (fun t => Completes r i d k 5 0x62 0 0 s t ∧ t.reqs = s.reqs)) ∧
    (∀ h q, s.tagged o (slice d 8 8) = some (h, q) → s.req h = some q →
      (getLe d 0 1 = 2 → s.descCode r 2 d = 0 → q.cancel = none → s.isStopped q.cwy = false → Goes (.cancel r) s (fun t =>
        t.req h = some { q with cancel := some { ring := r, dindex := i, tag := slice d 8 8, ttl := 0, num := s.nOrders } })) ∧
      (getLe d 0 1 = 3 → s.descCode r 3 d = 0 → q.wantsPause = false → q.acting = none → q.pause = none → s.isStopped q.cwy = false →
        getLe d 16 4 ≠ 0 → Goes (.pause r) s (fun t =>
        t.req h = some { q with pause := some { ring := r, dindex := i, tag := slice d 8 8, ttl := getLe d 16 4, num := s.nOrders } } ∧
        t.hbm = s.hbm)) ∧
      (getLe d 0 1 = 4 → s.descCode r 4 d = 0 → q.wantsPause = true → q.acting = none → q.resume = none → Goes (.resume r) s (fun t =>
        t.req h = some { q with resume := some { ring := r, dindex := i, tag := slice d 8 8, ttl := 0, num := s.nOrders } })) ∧
      (getLe d 0 1 = 5 → s.descCode r 5 d = 0 → Goes (.query r) s (fun t => t.reqs = s.reqs ∧
        Completes r i d 5 0 0 ((match q.phase with | .queued => 0 | .prefill => 1 | .decode => 2 | .paused => 3) + q.gen.length * 2 ^ 32)
          q.seq s t))) ∧
    (getLe d 0 1 = 11 → s.descCode r 11 d = 0 → Goes (.hint r) s (fun t => Completes r i d 11 0 0 0 0 s t ∧ t.reqs = s.reqs ∧
      t.en.hints = tset s.en.hints s.en.nHints (Hint.mk (getLe d 24 1)
        (s.pw.refTicks + 100 * getLe d 16 4) (s.pw.refTicks + 100 * getLe d 16 4 + 100 * getLe d 20 4) false) ∧ t.en.nHints = s.en.nHints + 1))

/-- Reads of prompts, and accesses that fail (R172, R195, R364): a read chunk is resident; a lookup read that matches the
next node pins it, one that matches none ends the lookup; a failed access of a request marks it, a failed write of a
fetched certificate shortens what its completion tells. -/
def Obligations.PromptReadsFeedTheirRequest : Prop :=
  ∀ s : State, s.running →
    (∀ h q toks, s.req h = some q → q.ready = false → q.lookup = false → q.isComp = false → q.phase ≠ .decode →
      Goes (.promptChunkRead h toks) s (fun t => ∃ q', t.req h = some q' ∧ q'.ready = true ∧
        q'.chunk = (List.range q.chunkLen).map (fun i => toks.getD i 0) ∧ q'.phase = q.phase ∧ q'.gen = q.gen ∧ q'.len = q.len)) ∧
    (∀ h q toks, s.req h = some q → q.ready = true → NoEffect (.promptChunkRead h toks) s) ∧
    (∀ h q, s.req h = some q → q.lookup = true → Goes (.prefixLookupRead h none) s (fun t =>
      t.req h = some { q with lookup := false, hostFail := true } ∧ t.cwys = s.cwys)) ∧
    (∀ h q toks, s.req h = some q → q.lookup = true →
      let page := (List.range 16).map (fun i => toks.getD i 0)
      let parent := q.hits.getLast?.getD 0xFFFFFFFF
      let ph := match tget (s.cwy q.cwy).kv.nodes parent with | some x => x.hash | none => []
      Goes (.prefixLookupRead h (some toks)) s (fun t =>
        match (s.cwy q.cwy).kv.nodes.find? (fun e => e.2.hash == pageHash ph page q.salt && e.2.parent == parent && e.2.toks == page) with
        | some (n, _) => ∃ q', t.req h = some q' ∧ q'.hits = q.hits ++ [n] ∧
            (tget (t.cwy q.cwy).kv.nodes n).map (·.refs) = (tget (s.cwy q.cwy).kv.nodes n).map (·.refs + 1)
        | none => ∃ q', t.req h = some q' ∧ q'.hits = q.hits ∧ q'.lookup = false ∧ t.cwys = s.cwys)) ∧
    (∀ h q a, s.req h = some q → a = .prompt h ∨ a = .tokenBuffer h → Goes (.hostAccessFailure a) s (fun t =>
      t.req h = some { q with hostFail := true } ∧ t.cwys = s.cwys)) ∧
    (∀ r i f n, s.certs.done.find? (fun e => e.1.ring == r && e.1.dindex == i) = some (f, n) →
      Goes (.hostAccessFailure (.certItem r i)) s (fun t => (f, 64) ∈ t.certs.done ∧ t.reqs = s.reqs) ∧
      Goes (.hostAccessFailure (.certHeader r i)) s (fun t => (f, 0) ∈ t.certs.done ∧ t.reqs = s.reqs))

/-! ### Weights and Spandrels (sections 3 and 9) -/

/-- Weight orders on an administrative ring (R214, R212, R216): LOAD_WEIGHTS is refused with 0x66 while weight orders are
barred, waits behind a bundle under way (the model's choice, log 90: R214 says nothing of two), and otherwise begins
its bundle when the header is sound and a bound tenant holds the key; a key envelope of an unknown purpose or with a
reserved byte is refused with 0x61, and one that opens gives its tenant the key, whatever errors its read meets (log
212); REPLACE_LAYER of staged layers is pending on a RUNNING Carriageway, begins its bulk writes at once on a DISABLED
or STOPPED one, is refused with 0x75 when a layer is not staged, and with 0x71 when a Bay has come to hold the other
weight mode since (R52; the model's inference, log 176). -/
def Obligations.WeightOrdersBeginTheirWork : Prop :=
  ∀ (r i : Nat) (d : Bytes) (rest : List (Nat × Bytes)) (s : State), s.serves r → (s.ring r).fetched = (i, d) :: rest →
    let c := r - 1024
    let w := (s.cwy c).w
    (getLe d 0 1 = 7 → getLe d 1 1 = 0 → s.descCode r 7 d = 0 →
      (s.loadBlocked c = true → Goes (.loadWeights r) s (fun t => Completes r i d 7 5 0x66 0 0 s t ∧ t.cwys = s.cwys)) ∧
      (s.loadBlocked c = false → ∀ l, w.load = some l → Goes (.loadWeights r) s (fun t =>
        (t.cwy c).w.load = some l ∧ ∃ y : Load, (t.cwy c).w.loadWait = w.loadWait ++ [y] ∧ y.ring = r ∧ y.dindex = i ∧
          y.off = getLe d 16 8 ∧ y.len = getLe d 24 8)) ∧
      (s.loadBlocked c = false → w.load = none → w.loadWait = [] →
        let hdr := s.bundleHead (s.landBase + getLe d 16 8)
        (headerBad 0 hdr (getLe d 24 8) = true → Goes (.loadWeights r) s (fun t => Completes r i d 7 5 0x61 0 0 s t)) ∧
        (headerBad 0 hdr (getLe d 24 8) = false → s.bundleKey c (slice hdr 8 16) = none →
          Goes (.loadWeights r) s (fun t => Completes r i d 7 5 0x41 0 0 s t)) ∧
        (headerBad 0 hdr (getLe d 24 8) = false → ∀ k, s.bundleKey c (slice hdr 8 16) = some k →
          Goes (.loadWeights r) s (fun t => (t.cwy c).w.load = some { ring := r, dindex := i, tag := slice d 8 8, off := getLe d 16 8, len := getLe d 24 8, hdr := hdr, key := k } ∧ t.hbm = s.hbm)))) ∧
    (getLe d 0 1 = 7 → getLe d 1 1 = 1 → s.descCode r 7 d = 0 →
      let n := getLe d 2 2
      ∀ fail, let env := memBytes (s.unitRead (s.landBase + getLe d 16 8) 1664 fail) 0 1664
      Goes (.loadWeightsKeyEnvelope { ring := r, fail := fail }) s (fun t =>
        if 1 < getLe env 1584 1 ∨ allZero (slice env 1585 15) = false ∨ allZero (slice env 1648 16) = false then
          Completes r i d 7 5 0x61 0 0 s t ∧ t.tenants = s.tenants
        else match openEnvelope env (slice env 1568 16 ++ leBytes 1 (getLe env 1584 1) ++ leBytes 1 c ++ leBytes 2 n ++ shake 16 idKey) with
        | none => Completes r i d 7 5 0x42 0 0 s t ∧ (t.tenant n).keyState = 2
        | some k => Completes r i d 7 0 0 0 0 s t ∧
            (getLe env 1584 1 = 1 → (t.tenant n).spKey = some (slice env 1568 16, k)) ∧
            (getLe env 1584 1 = 0 → (t.tenant n).modelKey = some (slice env 1568 16, k)))) ∧
    (getLe d 0 1 = 8 → s.descCode r 8 d = 0 → w.replace = none → s.inState c [.running] = true →
      let clash := s.stagedClash c ((List.range (getLe d 17 1)).map (getLe d 16 1 + ·))
      ((∀ k, k < getLe d 17 1 → (tget w.staged (getLe d 16 1 + k)).isSome = true) →
        (clash = false → Goes (.replaceLayer r) s (fun t =>
          (t.cwy c).w.replace = some { ring := r, dindex := i, tag := slice d 8 8, first := getLe d 16 1, count := getLe d 17 1 } ∧
          (t.cwy c).w.wstate = 3 ∧ (t.cwy c).w.layers = w.layers)) ∧
        (clash = true → Goes (.replaceLayer r) s (fun t => Completes r i d 8 5 0x71 0 0 s t ∧ t.cwys = s.cwys))) ∧
      (∀ k, k < getLe d 17 1 → tget w.staged (getLe d 16 1 + k) = none → Goes (.replaceLayer r) s (fun t =>
        Completes r i d 8 5 0x75 0 0 s t ∧ t.cwys = s.cwys))) ∧
    (getLe d 0 1 = 8 → s.descCode r 8 d = 0 → w.replace = none → s.inState c [.disabled, .stopped] = true → s.replaceBusy c = false →
      0 < getLe d 17 1 → (∀ k, k < getLe d 17 1 → (tget w.staged (getLe d 16 1 + k)).isSome = true) →
      s.stagedClash c ((List.range (getLe d 17 1)).map (getLe d 16 1 + ·)) = false → ∀ y, tget w.staged (getLe d 16 1) = some y →
      (s.layerClash y = true → Goes (.replaceLayer r) s (fun t => Completes r i d 8 5 0x71 0 0 s t ∧ (t.cwy c).w.replace = none ∧ t.bays = s.bays)) ∧
      (s.layerClash y = false → (∃ e ∈ y.piers, s.pstate (bayNo e.1.1 e.1.2.1) (s.phys (bayNo e.1.1 e.1.2.1) e.1.2.2) ≠ 3) →
        Goes (.replaceLayer r) s (fun t => t.replaceBusy c = true ∧ t.hbm = s.hbm ∧ (t.ring r).cqTail = (s.ring r).cqTail ∧
          (t.cwy c).w.replace = some { ring := r, dindex := i, tag := slice d 8 8, first := getLe d 16 1, count := getLe d 17 1 } ∧
          (t.cwy c).w.wstate = 3)))

/-- Bundles (R210, R213, R215, R74): a chunk of a weight or a Spandrel bundle, as it is read with whatever errors (R14,
R234), that does not authenticate ends its load and writes nothing, and one that does gives its whole records to the
checks of R214, which end the load or go on; a complete weight bundle with its digests is accepted, and its layers
stand staged on an enabled Carriageway, which keeps its digests and versions, and in effect on a DISABLED one, where
no image has the other weight mode than its Bay by then (the model's inference, log 176), but none replaces a staging
that a pending REPLACE_LAYER uses; the bulk write that its Bay runs, on a Span with clocks, whose shadow is sound and
that reads back, none of its flits damaged on the way (log 213), makes its Pier READY with the bytes that arrived, one
that does not fences it, and one that waits does not end. -/
def Obligations.BundlesAreCheckedThenInstalled : Prop :=
  ∀ (c : Nat) (s : State), s.running → (s.cwy c).w.loadWait = [] →
    (∀ (slot : Option Nat) l fail, (match slot with | none => (s.cwy c).w.load | some k => s.spLoad c k) = some l → l.chunk < l.chunks →
      let n := min (2 ^ 22) (l.plain - l.chunk * 2 ^ 22)
      let a := s.landBase + l.off + headLen l.nLayers + l.chunk * (2 ^ 22 + 16)
      let m := s.unitRead a (n + 16) fail
      let ended : State → Prop := fun t => match slot with
        | none => (t.cwy c).w.load = none
        | some k => t.sp k = {} ∧ (t.cwy c).w.spLoads = (s.cwy c).w.spLoads.filter (fun y => y.slot != k)
      let goesOn : Load → State → Prop := fun y t => match slot with
        | none => (t.cwy c).w.load = some y
        | some k => t.sp k = s.sp k ∧ (t.cwy c).w.spLoads = (s.cwy c).w.spLoads.map (fun z => if z.slot == k then y else z)
      Goes (.bundleChunk c { spandrel := slot, fail := fail }) s (fun t =>
        match gcmOpen l.key (leBytes 8 l.chunk ++ slice l.hdr 24 4) (shake 32 l.hdr ++ leBytes 8 l.chunk) (memBytes m 0 n) (memBytes m n 16) with
        | none => ended t ∧ t.hbm = s.hbm
        | some pt =>
          let l' : Load := { l with rest := l.rest ++ pt, chunk := l.chunk + 1 }
          let x := parseRecords (l'.rest.length / 32 + 1) c slot.isSome l' (unitReads (some c) a (n + 16) fail s)
          let y := x.2.1
          t.hbm = x.2.2.hbm ∧
          if x.1 = true then ended t
          else if y.chunk < l.chunks then goesOn y t
          else if y.code = 0 ∧ (y.rest = [] ∨ y.lost = true) then goesOn y t else ended t)) ∧
    (∀ l, (s.cwy c).w.load = some l → l.accepted = false → l.chunks ≤ l.chunk → Goes (.bundleLoadDone c) s (fun t =>
      t.hbm = s.hbm ∧
      if (s.cwy c).w.stagedInUse l = false ∧ digestsGood (s.cwy c).w l = true ∧ (s.enabled c = true ∨ ∀ y ∈ l.layers, s.layerClash y.2 = false) then
        (if s.enabled c then (t.cwy c).w.load = none ∧ (t.cwy c).w.layers = (s.cwy c).w.layers ∧
            (t.cwy c).w.digests = (s.cwy c).w.digests ∧ (t.cwy c).w.versions = (s.cwy c).w.versions ∧
            (t.cwy c).w.staged = l.layers.foldl (fun t y => tset t y.1 y.2) (s.cwy c).w.staged
         else (t.cwy c).w.layers = l.layers.foldl (fun t y => tset t y.1 y.2) (s.cwy c).w.layers)
      else (t.cwy c).w.load = none ∧ (t.cwy c).w.layers = (s.cwy c).w.layers ∧ (t.cwy c).w.staged = (s.cwy c).w.staged)) ∧
    (∀ span bay phys b rest, (s.bay (bayNo span bay)).bulk = (phys, b) :: rest → b.on = true → s.dieOn span = true → b.why = 0 → b.cwy = c → (s.pier (bayNo span bay) phys).state ≠ 3 →
      ∀ back fail, let f := upTo imageLen fail
      let late := f.crc.filter (fun e => e.link != abutLink)
      let shadow := s.unitRead b.src imageLen { f with crc := [] }
      let img := patch shadow late
      let good : Bool := back && imageSound shadow && (late.isEmpty || imageSound img)
      (good = true → Goes (.bulkWriteDone span bay phys { readBack := back, fail := fail }) s (fun t =>
        (t.pier (bayNo span bay) phys).state = 2 ∧ (t.pier (bayNo span bay) phys).img = img ∧
        (t.pier (bayNo span bay) phys).lastRefresh = s.pw.refTicks ∧
        ((s.bay (bayNo span bay)).programmed phys = false →
          (t.bay (bayNo span bay)).mode = some (imageMode img)) ∧ t.hbm = s.hbm)) ∧
      (good = false → s.sparePhys (bayNo span bay) ≠ phys → (∀ f ∈ s.ras.pend, f.spare ≠ some phys) → s.ras.queue = [] →
        Goes (.bulkWriteDone span bay phys { readBack := back, fail := fail }) s (fun t => (t.pier (bayNo span bay) phys).state = 3 ∧ t.hbm = s.hbm))) ∧
    (∀ span bay phys fin, ((s.bay (bayNo span bay)).bulk.map (·.1)).head? ≠ some phys → NoEffect (.bulkWriteDone span bay phys fin) s)

/-- Spandrels (R222, R223, R225): LOAD_SPANDREL of a bound tenant with its key takes the lowest free slot of its
Carriageway, a placed Spandrel is READY until the next Keystone of a RUNNING Carriageway, and at once CURRENT and its
tenant's on any other, and RETIRE_SPANDREL frees a READY slot and marks a CURRENT one. -/
def Obligations.SpandrelsAreLoadedAndRetired : Prop :=
  (∀ (r i : Nat) (d : Bytes) (rest : List (Nat × Bytes)) (s : State), s.serves r → (s.ring r).fetched = (i, d) :: rest →
    let c := if r < 1024 then s.ringCwy r else r - 1024
    let m := getLe d 2 2
    let hdr := s.bundleHead (s.landBase + getLe d 16 8)
    (getLe d 0 1 = 9 → s.descCode r 9 d = 0 → (s.tenant m).bound = true → (s.tenant m).unbinding = false → s.tenCwy m = c →
      s.loadBlocked c = false → headerBad 1 hdr (getLe d 24 8) = false → ∀ k n, (s.tenant m).spKey = some (slice hdr 8 16, k) →
      s.freeSpandrel c = some n → Goes (.loadSpandrel r) s (fun t =>
        t.sp n = { state := 1, num := s.nOrders + 1, tenant := m, cwy := c, base := s.carveBase c + getLe d 32 8, version := getLe hdr 28 4, order := some (r, i, slice d 8 8) } ∧ (t.ring r).cqTail = (s.ring r).cqTail ∧ t.hbm = s.hbm)) ∧
    (getLe d 0 1 = 10 → s.descCode r 10 d = 0 → (s.tenant m).bound = true → s.tenCwy m = c → (s.sp (getLe d 16 1)).tenant = m →
      (s.sp (getLe d 16 1)).retiring = false →
      ((s.sp (getLe d 16 1)).state = 2 → (s.sp (getLe d 16 1)).order = none → Goes (.retireSpandrel r) s (fun t =>
        t.sp (getLe d 16 1) = {} ∧ Completes r i d 10 0 0 0 0 s t)) ∧
      ((s.sp (getLe d 16 1)).state = 3 → s.inState c [.running, .stopping] = true → Goes (.retireSpandrel r) s (fun t =>
        t.sp (getLe d 16 1) = { s.sp (getLe d 16 1) with retiring := true, retireOrd := (s.sp (getLe d 16 1)).retireOrd ++ [(r, i, slice d 8 8)] } ∧
        (t.ring r).cqTail = (s.ring r).cqTail)))) ∧
  (∀ (n : Nat) (l : Load) (s : State), s.running → s.spLoad (s.sp n).cwy n = some l → l.chunks ≤ l.chunk →
    s.inState (s.sp n).cwy [.running] = true → Goes (.spandrelPlaced n) s (fun t =>
      (t.sp n).state = 2 ∧ (t.sp n).digest = shake 64 (l.recs.flatMap (·.2)) ∧ (t.sp n).tenant = (s.sp n).tenant ∧ t.hbm = s.hbm)) ∧
  (∀ (n : Nat) (l : Load) (s : State), s.running → s.spLoad (s.sp n).cwy n = some l → l.chunks ≤ l.chunk →
    s.inState (s.sp n).cwy [.running] = false → Goes (.spandrelPlaced n) s (fun t =>
      (t.sp n).state = 3 ∧ (t.sp n).digest = shake 64 (l.recs.flatMap (·.2)) ∧ (t.sp n).order = none ∧
      (t.tenant (s.sp n).tenant).spEn = true ∧ (t.tenant (s.sp n).tenant).spandrel = n ∧ t.hbm = s.hbm))

/-- Refresh (R68 to R71): the read of the next Pier of its Span puts the shadow, as it arrives, in a refresh buffer and
starts its row writes when its CRC-32C holds; a first bad one is read again and a second counted. An uncorrectable
word is delivered as a free value (R234, log 212), a flit damaged on the Viaduct as it arrives (R14), and both are
errors of the step. Each row write, in the row-write window of a beat or while the Pier has none, copies the next row
from the buffer, a flit damaged on the Viaduct as it arrives (the flits of a row are the model's, log 213), and the
last completes the refresh and frees it; a Pier late by twice the longest interval of its Bay is overdue, once. -/
def Obligations.RefreshCopiesTheShadowRowByRow : Prop :=
  ∀ (span bay phys : Nat) (s : State), s.running →
    let n := bayNo span bay
    let x := s.pier n phys
    (∀ c l a fail, x.refreshBuf = none → s.halted = false → s.dieOn span = true → s.refreshNext span = some (17 * bay + phys) → s.refreshBufs span < 128 →
      s.pierShadow n phys = some (c, l, a) →
      let f : ReadFail := { fail with crc := fail.crc.filter (fun e => fetchCrosses (6 + span / 3) (a + 64 * e.flit)) }
      let img := s.unitRead a imageLen f
      let errs : List ErrRec := (badFlits (upTo imageLen f).ecc).map (fun _ => { unit := .device, checks := 0 }) ++
        (upTo imageLen f).crc.map (fun e => { unit := .via e.link, checks := 0 })
      Goes (.refreshReadDone span bay { phys := phys, fail := fail }) s (fun t => tget t.refreshAt span = some (17 * bay + phys) ∧
        (imageSound img = true ∨ x.retried = false → (t.cwy c).run.errs = (s.cwy c).run.errs ++ errs) ∧
        if imageSound img = true then t.refreshRetry = s.refreshRetry ∧
          t.pier n phys = { x with refreshBuf := some img, refreshRow := some 0, retried := false }
        else if x.retried then t.refreshFail = satAdd 16 s.refreshFail 1 ∧ (t.cwy c).w.badLayer = l
        else t.pier n phys = { x with retried := true } ∧ t.refreshRetry = satAdd 16 s.refreshRetry 1)) ∧
    (∀ row m u crc, x.refreshRow = some row → x.refreshBuf = some m → s.halted = false → s.pstate n phys = 2 → tget (s.bay n).bulk phys = none →
      s.rowSlot n phys u = true → Goes (.refreshRowWrite span bay phys { t := u, crc := crc }) s (fun t => t.hbm = s.hbm ∧
        let crc' := crc.filter (fun e => decide (e.flit < 5))
        let img := putRow x.img row (rowSent m row crc')
        (∀ c l a, s.pierShadow n phys = some (c, l, a) → (t.cwy c).run.errs = (s.cwy c).run.errs ++ crc'.map (fun e => { unit := .via e.link, checks := 0 })) ∧
        if row < 511 then t.pier n phys = { x with img := img, refreshRow := some (row + 1), rowFree := u + 16 }
        else t.pier n phys = { x with img := img, refreshRow := none, refreshBuf := none, rowFree := u + 16,
                                      lastRefresh := s.pw.refTicks, overdue := false })) ∧
    (∀ u crc, x.refreshRow = none ∨ s.rowSlot n phys u = false → NoEffect (.refreshRowWrite span bay phys { t := u, crc := crc }) s) ∧
    (s.pstate n phys = 2 → x.overdue = false → x.lastRefresh + 2 * s.longest n < s.pw.refTicks →
      Goes (.refreshOverdue span bay phys) s (fun t => t.pier n phys = { x with overdue := true })) ∧
    (x.overdue = true → NoEffect (.refreshOverdue span bay phys) s)

/-! ### Calibration, faults and inspection (sections 11 and 12) -/

/-- Calibration (R276 to R280, R282, R287): a sample is classed and counted, three bad ones in a row are a reference fault
and a hundred good ones in a row clear it; a calibration beat in free cycles of its Pier counts one beat of its pass,
and brings its Bay into the running state where the ramp share has room, without which there is none (R128, R280); the
end of a pass stages the new trims, which take effect at once where no enabled Carriageway uses the Bay, or counts a
failed pass. -/
def Obligations.CalibrationPassesGiveTrims : Prop :=
  ∀ s : State, s.running →
    (∀ v, Goes (.vrefSample v) s (fun t =>
      let code := vrefClass v (if (s.vref.count + 1) % 10 = 0 then some (v - s.vref.sample) else none)
      t.vref.sample = v ∧ t.vref.count = s.vref.count + 1 ∧ t.vref.good = (if code = 0 then s.vref.good + 1 else 0) ∧
      t.vref.bad = (if code = 0 then 0 else s.vref.bad + 1) ∧
      (t.vref.faulted = true ↔ (s.vref.faulted = false ∧ code ≠ 0 ∧ s.vref.bad = 2) ∨
        (s.vref.faulted = true ∧ ¬(code = 0 ∧ 99 ≤ s.vref.good))) ∧ t.words = s.words)) ∧
    (∀ span bay phys u k, s.ownSlot (bayNo span bay) phys u = true → s.mayHeat (bayNo span bay) = true → (s.pier (bayNo span bay) phys).calLeft = some (k + 1) →
      Goes (.calibrationBeat span bay phys u) s (fun t =>
        t.pier (bayNo span bay) phys = { s.pier (bayNo span bay) phys with
          calLeft := some k, lastStart := some u } ∧
        (t.bay (bayNo span bay)).lastBeat = some u ∧ ∀ c ∈ s.coldFor (bayNo span bay), bayNo span bay ∈ (t.cwy c).warm)) ∧
    (∀ span bay phys u, (s.pier (bayNo span bay) phys).calLeft = none ∨ s.ownSlot (bayNo span bay) phys u = false ∨
        s.mayHeat (bayNo span bay) = false →
      NoEffect (.calibrationBeat span bay phys u) s) ∧
    (∀ span bay phys sums ver, (s.pier (bayNo span bay) phys).calLeft = some 0 → s.dieOn span = true → Goes (.calPassDone span bay phys sums ver) s (fun t =>
      match passTrims (s.bayMode (bayNo span bay)) sums ver with
      | some tr =>
        if s.enabledCwys.any (fun c => s.uses c (bayNo span bay)) then
          (t.pier (bayNo span bay) phys).staged.map (·.trims) = some (.given tr) ∧ (t.pier (bayNo span bay) phys).trims = (s.pier (bayNo span bay) phys).trims
        else (t.pier (bayNo span bay) phys).trims = .given tr ∧ (t.pier (bayNo span bay) phys).staged = none
      | none => (t.bay (bayNo span bay)).calFails = min 255 ((s.bay (bayNo span bay)).calFails + 1) ∧
          (t.pier (bayNo span bay) phys).trims = (s.pier (bayNo span bay) phys).trims)) ∧
    (∀ span bay phys sums ver, (s.pier (bayNo span bay) phys).calLeft = none → NoEffect (.calPassDone span bay phys sums ver) s)

/-- Recovery (R255 to R257, R260 to R268): the oldest demand's action starts: that of the device is halt-safe, which stops
every RUNNING Carriageway at its next Keystone (the model's inference of what a device demand starts, log 100), that
of a Bay that no Carriageway uses fences it, and one whose level runs elsewhere waits in the queue; a pending fence of
a Bay that no Carriageway uses any longer takes effect; RAS_WIN_CFG, in its turn on its path (log 198), stores its
fields within their limits and waits for the enabled Carriageways, for each of which the word in force stays so (the
model's inference, log 109). The Ledger (R258, R259): a queued record, or a checkpoint, is appended to the log and to
its flash region; a write that fails loses its record (the model's inference, log 101), clears ledger_ok and latches
ALERT cause 4; a log above three quarters of its region is copied as R259 names into free sectors, and then the older
sectors are erased, in two runs where they go on at the start of the region. What a copy that the free sectors do not
hold does is the model's inference (log 23). -/
def Obligations.DemandsAndLedgerRecordFaults : Prop :=
  (∀ s : State, s.running →
    let used : Prop := ∀ f ∈ s.ras.pend, ∃ c < 64, s.unitUsed c f.unit = true
    (s.ras.demands = [] → s.ras.queue = [] → used → NoEffect .recoveryActionStart s) ∧
    (∀ f sp b, s.ras.demands = [] → s.ras.queue = [] → s.ras.pend = [f] → f.unit = .bay sp b → (∀ c < 64, s.unitUsed c (.bay sp b) = false) →
      Goes .recoveryActionStart s (fun t => (t.bay (bayNo sp b)).fenced = true ∧ t.ras.pend = [] ∧ ∀ c, (t.cwy c).life = (s.cwy c).life)) ∧
    (∀ d rest, s.ras.demands = d :: rest →
      (d.unit = .device → s.ras.queue = [] → (∀ f ∈ s.ras.pend, ∃ c < 64, s.inState c [.running] = true ∧ s.unitUsed c f.unit = true) → Goes .recoveryActionStart s (fun t => t.ras.haltSafe = true ∧
        ∀ c < 64, s.inState c [.running] = true → (t.cwy c).life.stopPend = max (s.cwy c).life.stopPend 5)) ∧
      (∀ sp b, d.unit = .bay sp b → used → s.outOfService (.bay sp b) = false → s.ras.running = [] → s.ras.queue = [] → (∀ c < 64, s.unitUsed c (.bay sp b) = false) →
        Goes .recoveryActionStart s (fun t => (t.bay (bayNo sp b)).fenced = true ∧
          t.ras.demands = rest.filter (fun x => !x.unit.within (.bay sp b)) ∧ (∀ c, (t.cwy c).life = (s.cwy c).life) ∧
          t.ledger.queue.length = s.ledger.queue.length + 1)) ∧
      (d.unit ≠ .device → used → s.outOfService d.unit = false → d.unit.lastLink = false → s.ras.running.any (fun y => y.level == d.unit.level) = true →
        (∀ y ∈ s.ras.running, y.level = d.unit.level → y.unit.scope ≠ d.unit.scope) →
        (∀ y ∈ s.ras.queue, s.ras.running.any (fun x => x.level == y.level) = true) →
        s.ras.queue.length < 32 → Goes .recoveryActionStart s (fun t =>
          t.ras = { s.ras with demands := rest, queue := queueInsert { level := d.unit.level, unit := d.unit } s.ras.queue }))) ∧
    (∀ (p : Path) (w : Word), s.mgt.stage = 8 → s.waitsBehind p = false → Goes (.winCfgWrite p w) s (fun t =>
      t.words = tset s.words 0x80000 (BitVec.ofNat 64 (winCfgStored w.toNat)) ∧ t.ras.evts = s.ras.evts ∧
      t.ras.cfgOf = s.enabledCwys.map (fun c => (c, (tget s.ras.cfgOf c).getD (s.word 0x80000))))) ∧
    (∀ (p : Path) (w : Word), s.waitsBehind p = true → Goes (.winCfgWrite p w) s (fun t => t.words = s.words ∧ t.ras = s.ras ∧
      t.chain.held.map (·.instr) = s.chain.held.map (·.instr) ++ [.winCfgWrite p w])) ∧
    (∀ (p : Path) (w : Word), s.mgt.stage ≠ 8 → NoEffect (.winCfgWrite p w) s)) ∧
  (∀ s : State, s.running →
    let n := s.ledger.base + s.ledger.log.length
    (∀ x rest, s.mgt.hkStopped = false → s.ledger.queue = x :: rest →
      Goes (.ledgerWrite true) s (fun t => t.ledger = { s.ledger with log := s.ledger.log ++ [x], queue := rest } ∧
        t.out = .flash (ledgerAt n) x :: s.out) ∧
      Goes (.ledgerWrite false) s (fun t => t.ledger = { s.ledger with queue := rest, ok := false } ∧ bit t.chain.alertLatch 4 = true)) ∧
    (∀ b, s.ledger.queue = [] → NoEffect (.ledgerWrite b) s) ∧
    (s.mgt.hkStopped = false → Goes (.ledgerCheckpoint true) s (fun t => ∃ x, t.ledger = { s.ledger with log := s.ledger.log ++ [x] } ∧
      getLe x 0 1 = 5 ∧ getLe x 8 8 = serviceBeat s % 2 ^ 64 ∧ getLe x 16 4 = s.ledger.boot % 2 ^ 32 ∧ t.out = .flash (ledgerAt n) x :: s.out)) ∧
    (s.mgt.hkStopped = false → Goes (.ledgerCheckpoint false) s (fun t =>
      t.ledger = { s.ledger with ok := false } ∧ bit t.chain.alertLatch 4 = true)) ∧
    (s.mgt.hkStopped = false → 98304 < s.ledger.log.length →
      let keep := compacted s s.ledger.log
      let room := s.ledger.free
      (keep.length ≤ room.2 → Goes (.ledgerCompaction true) s (fun t =>
        t.ledger = { s.ledger with log := keep, base := room.1 % ledgerSize } ∧
        let old := s.ledger.base / ledgerSector * ledgerSector
        let stop := min room.1 ledgerSize
        t.out = (if stop < room.1 then [.flashErase (ledgerAt 0) (32 * (room.1 - stop))] else []) ++
          [.flashErase (ledgerAt old) (32 * (stop - old))] ++
          (((List.range keep.length).zip keep).map (fun e => Output.flash (ledgerAt (room.1 + e.1)) e.2)).reverse ++ s.out)) ∧
      (∀ b, b = false ∨ room.2 < keep.length → Goes (.ledgerCompaction b) s (fun t =>
        t.ledger = { s.ledger with ok := false } ∧ bit t.chain.alertLatch 4 = true))) ∧
    (∀ b, s.ledger.log.length ≤ 98304 → NoEffect (.ledgerCompaction b) s))

/-- Inspection and fence clears (R270 to R274): an inspection of a READY Pier in free cycles at its test temperature, or
in a Bay that was cold for a whole period, of an UNPROGRAMMED Pier by its test image, or of a Girder in cycles that
its routines leave free, by patterns of every kind, is timed and, when it fails, is one event of the unit; a unit that
misses its period is starved once; a clear of a fenced unit outside every enabled grant is pending, and one whose
eight runs pass returns the unit to service. -/
def Obligations.InspectionsAndClearsMoveUnits : Prop :=
  ∀ (span bay phys : Nat) (s : State), s.running →
    let n := bayNo span bay
    (∀ u seg codes, s.inspects = true → s.pstate n phys = 2 → s.inspSlot n phys u = true →
      (s.hotNow n = true ∨ s.coldBay n = true) → Goes (.inspectionBeat span bay phys u seg codes) s (fun t =>
      t.pier n phys = { s.pier n phys with lastInsp := serviceBeat s, starved := false, lastStart := some u } ∧
      t.ras.evts = if inspPass (s.pier n phys).img (s.bayMode n) seg codes then s.ras.evts
        else s.ras.evts ++ [{ unit := .pier span bay phys, stamp := serviceBeat s, cause := 2 }])) ∧
    (∀ u seg codes, s.inspects = false ∨ s.inspSlot n phys u = false → NoEffect (.inspectionBeat span bay phys u seg codes) s) ∧
    (∀ run : InspRun, s.inspects = true → s.dieOn span = true → (s.sparePhys n = phys ∨ ∀ c < 64, s.unitUsed c (.bay span bay) = false) → s.pstate n phys = 0 →
      (run.wrote = true → run.beats ≠ []) → (s.bay n).bulk = [] → s.calWaits n phys = false → s.runFits n phys run.beats = true →
      Goes (.spareInspection span bay phys run) s (fun t =>
      let last := (run.beats.getLast?.map (·.start)).orElse (fun _ => (s.pier n phys).lastStart)
      t.pier n phys = { s.pier n phys with lastInsp := serviceBeat s, starved := false, img := testImage, lastStart := last } ∧
      t.ras.evts = if run.wrote = true ∧ ∀ b ∈ run.beats, inspPass testImage (s.bayMode n) b.seg b.codes = true then s.ras.evts
        else s.ras.evts ++ [{ unit := .pier span bay phys, stamp := serviceBeat s, cause := if run.wrote then 2 else 3 }])) ∧
    (∀ g run, s.inspects = true → s.dieOn span = true → s.outOfService (.girder span g) = false →
      s.girderFree span g run.start run.len = true → runCovers run = true →
      Goes (.girderInspection span g run) s (fun t =>
      t.girder (girNo span g) = { s.girder (girNo span g) with lastInsp := serviceBeat s, starved := false } ∧
      t.ras.evts = if ∀ p ∈ run.patterns, p.2 = patternBits ((drawFree s).1 % 2 ^ 32) p.1 then s.ras.evts
        else s.ras.evts ++ [{ unit := .girder span g, stamp := serviceBeat s, cause := 2 }])) ∧
    (s.inspects = true → s.outOfService (.pier span bay phys) = false → (s.pier n phys).starved = false →
      2 ^ s.inspf 20 6 ≤ serviceBeat s - max s.ras.inspFrom (s.pier n phys).lastInsp →
      Goes (.inspectionStarved 0 span bay phys) s (fun t => t.pier n phys = { s.pier n phys with starved := true })) ∧
    ((s.pier n phys).starved = true → NoEffect (.inspectionStarved 0 span bay phys) s) ∧
    (∀ (w : Word) u, s.mgt.stage = 8 → s.waitsBehind .host = false → bit w.toNat 31 = true → s.clrUnit w.toNat = some u → Goes (.fenceClear .host w) s (fun t =>
      t.ras = if s.unitGranted u then s.ras else { s.ras with clr := s.ras.clr ++ [u] })) ∧
    (∀ runs rest, s.halted = false → s.ras.clr = .bay span bay :: rest → Goes (.fenceClearDone runs) s (fun t => t.ras.clr = rest ∧
      (t.bay n).fenced = if (List.range 8).all (fun k => (runs.map (fun r => pierRunPass r (s.bayMode n))).getD k false) then false
        else (s.bay n).fenced))

/-! ### Certificates, events, the host's windows and the link (sections 10, 15, 16) -/

/-- Merkle windows (R248 to R253): a window closes with the leaves issued in it, and the next one opens with the later
ones; that the reference counter then stands at the end of the window at least is the model's choice (log 19). The
oldest closed window without a record gets its record, signed by the device or unsigned with halt-safe; a FETCH_CERT
of the open window waits, of a window not held is answered. -/
def Obligations.WindowsCloseAndAreSigned : Prop :=
  ∀ s : State, s.running →
    Goes .windowClose s (fun t => t.certs.window = s.certs.window + 1 ∧
      t.certs.leaves = s.certs.leaves.filter (fun l => decide (s.certs.window < l.win)) ∧
      t.certs.closed = reclaim (s.certs.closed ++
        [{ num := s.certs.window, leaves := s.certs.leaves.filter (fun l => decide (l.win ≤ s.certs.window)) }]) ∧
      t.pw.refTicks = max s.pw.refTicks (1000000 * (s.certs.window + 1)) ∧ t.certs.serial = s.certs.serial) ∧
    (∀ w, s.certs.closed.find? (fun w => w.rec_.isNone) = some w →
      let rec_ := windowRecord s w 0 (idSign (shake 64 (recordHead s w 0)))
      Goes .windowSigned s (fun t => { w with rec_ := some rec_ } ∈ t.certs.closed ∧
        t.certs.prev = shake 32 rec_ ∧ t.certs.signerOk = true ∧ t.certs.lastSigned = w.num ∧
        t.certs.unsigned = s.certs.unsigned ∧ t.cwys = s.cwys) ∧
      Goes .signingFailure s (fun t => { w with rec_ := some (windowRecord s w 1 []) } ∈ t.certs.closed ∧
        t.certs.signerOk = false ∧ t.certs.lastSigned = s.certs.lastSigned ∧ t.certs.unsigned = satAdd 16 s.certs.unsigned 1 ∧
        t.ras.haltSafe = true)) ∧
    (∀ r i d rest, s.serves r → (s.ring r).fetched = (i, d) :: rest → getLe d 0 1 = 6 → s.descCode r 6 d = 0 → getLe d 1 1 = 1 →
      s.certs.closed.find? (fun w => w.num == getLe d 16 8) = none →
      let f : Fetch := { ring := r, dindex := i, tag := slice d 8 8, sel := 1, key := getLe d 16 8, dest := getLe d 24 8, cap := getLe d 32 4 }
      Goes (.fetchCert r) s (fun t => (t.ring r).cqTail = (s.ring r).cqTail ∧
        if f.key = s.certs.window then t.certs = { s.certs with waiting := s.certs.waiting ++ [f] }
        else t.certs = { s.certs with done := s.certs.done ++ [(f, 64)] } ∧
          Output.hostWrite (s.ringPasid r) f.dest (fetchHead 1 0 0 0 0 0) ∈ t.out))

/-- The event ring and MSI-X (R381, R384): a poll takes the host's head while records wait; enabling with a size from 2^6
to 2^16 starts the ring at 0, a failed access disables it, and the latest records that it left unwritten wait again,
before the others and the events-lost record, 64 in all (R382); unmasking a vector sends its pending message. -/
def Obligations.EventsReachTheHost : Prop :=
  ∀ s : State, s.running →
    (∀ head, s.host.evt.enable = true → s.host.evt.waiting ≠ [] → Goes (.eventHeadPoll head) s (fun t =>
      t.host.evt.head = head % 2 ^ 32 ∧ t.host.evt.enable = true ∧ t.host.rings = s.host.rings)) ∧
    (∀ head, s.host.evt.enable = false ∨ s.host.evt.waiting = [] → NoEffect (.eventHeadPoll head) s) ∧
    (∀ n, let e := s.host.evt
      let back := (e.wrote.take n).reverse
      Goes (.eventRingFailure n) s (fun t => t.out = s.out ∧ t.host.rings = s.host.rings ∧ t.host.evt.enable = false ∧
        t.host.evt.waiting = (back ++ e.waiting).take 64 ∧ t.host.evt.wrote = e.wrote.drop n ∧
        t.host.evt.before = e.before.map (fun k => min 64 (k + back.length)) ∧
        ((back ++ e.waiting).length ≤ 64 → t.host.evt.lost = e.lost ∧ t.host.evt.ovf = e.ovf) ∧
        (64 < (back ++ e.waiting).length → t.host.evt.ovf = true))) ∧
    (s.waitsBehind .host = false → s.host.evt.enable = false → s.host.evt.waiting = [] → s.host.evt.ovf = false → 6 ≤ s.evtf 112 5 → s.evtf 112 5 ≤ 16 →
      Goes .eventRingEnable s (fun t => t.host.evt = { s.host.evt with enable := true, head := 0, tail := 0 })) ∧
    (s.waitsBehind .host = false → s.evtf 112 5 < 6 ∨ 16 < s.evtf 112 5 → NoEffect .eventRingEnable s) ∧
    (s.waitsBehind .host = true → Goes .eventRingEnable s (fun t => t.host.evt = s.host.evt)) ∧
    (∀ v, v ∈ s.host.msixPending → s.pw.shutEnded = false → Goes (.msixUnmask v) s (fun t => t.out = .msix v :: s.out ∧ v ∈ t.host.unmasked ∧
      v ∉ t.host.msixPending)) ∧
    (∀ v, v ∉ s.host.msixPending ∨ s.pw.shutEnded = true → Goes (.msixUnmask v) s (fun t => t.out = s.out ∧ v ∈ t.host.unmasked))

/-- The host's windows (R359, R360, R414): a map stores base and length unless its lock, judged once on arrival, holds,
and is enabled when its length and place are sound, else its reason is given; clearing the enable unmaps, and empties
the snoop filter without back-invalidates (the model's inference, log 95); the landing region stays mapped while a
load is pending; a map write waits behind earlier accesses of the host (log 198). Accesses of the host to HBM (R137,
R358, R360, R361): through a mapped window a read returns the bytes as they stand once every flit due by now has
arrived, an uncorrectable word as a free value (R234, log 212), and a write puts them, every other byte reading as
before; a protected granule or an access outside the window reads zero and takes no write, and a container of an
enabled Carriageway takes none either, through BAR2 without an event (the model's choice, log 157). The write-back of
lines that the device has snooped is taken but for the bytes that the device has written since (the model's inference,
log 158); a window mapped to an address that does not exist stops the model. -/
def Obligations.WindowMapsAndHostAccesses : Prop :=
  (∀ (w : Word) (s : State), s.running →
    let stored := BitVec.ofNat 64 (fld w.toNat 0 9 + fld w.toNat 16 7 * 2 ^ 16)
    let put : Nat → Tab Word := fun off => if s.lockedNow off then s.words else tset s.words off stored
    (s.chain.slot = none → ∀ off, s.lockedNow off = s.rwlLocked off) ∧
    (s.waitsBehind .host = true → Goes (.hdmMapWrite w) s (fun t => t.words = s.words ∧ t.host = s.host) ∧
      Goes (.landMapWrite w) s (fun t => t.words = s.words ∧ t.host = s.host)) ∧
    (s.waitsBehind .host = false →
      (bit w.toNat 63 = false → Goes (.hdmMapWrite w) s (fun t => t.words = put 0x10010 ∧
        t.host = { s.host with hdmEn := false, filter := [], snooped := [] })) ∧
      (s.host.hdmEn = true → bit w.toNat 63 = true → Goes (.hdmMapWrite w) s (fun t => t.words = put 0x10010 ∧ t.host = s.host)) ∧
      (s.host.hdmEn = false → bit w.toNat 63 = true → Goes (.hdmMapWrite w) s (fun t => t.words = put 0x10010 ∧
        let r := mapRange (t.word 0x10010)
        if r.2 = 0 ∨ 64 < r.2 then t.host = { s.host with hdmReason := 0x61 }
        else if overlap r storeGib || (s.host.landEn && overlap r (mapRange (t.word 0x10020))) then t.host = { s.host with hdmReason := 0x12 }
        else t.host = { s.host with hdmEn := true })) ∧
      (bit w.toNat 63 = false → Goes (.landMapWrite w) s (fun t => t.words = put 0x10020 ∧
        t.host = if s.host.landEn && s.loadsPending then { s.host with landReason := 0x76 } else { s.host with landEn := false })) ∧
      (s.host.landEn = true → bit w.toNat 63 = true → Goes (.landMapWrite w) s (fun t => t.words = put 0x10020 ∧ t.host = s.host)) ∧
      (s.host.landEn = false → bit w.toNat 63 = true → Goes (.landMapWrite w) s (fun t => t.words = put 0x10020 ∧
        let r := mapRange (t.word 0x10020)
        if r.2 = 0 ∨ 64 < r.2 then t.host = { s.host with landReason := 0x61 }
        else if overlap r storeGib || (s.host.hdmEn && overlap r (mapRange (t.word 0x10010))) || t.carveHit r then
          t.host = { s.host with landReason := 0x12 }
        else t.host = { s.host with landEn := true })))) ∧
  (∀ (off n : Nat) (f : ReadFail) (data : Bytes) (back : Bool) (s : State), s.running →
    let u := landNow s
    let a := s.hdmBase + off
    let b := s.landBase + off
    let owes : Bool := back && u.writesBack (linesOf off data.length)
    let own : Nat → Bool := fun i => u.host.snooped.any (fun e => e.1 == (off + i) / 64 && bit e.2 ((off + i) % 64))
    (s.hdmMapped off n = false → Goes (.hdmAccess off (.read n f)) s (fun t => t = { s with out := .readData (zeros n) :: s.out })) ∧
    (s.hdmMapped off data.length = false → NoEffect (.hdmAccess off (.write data back)) s) ∧
    (s.hdmMapped off n = true → hbmIn a n = true → Goes (.hdmAccess off (.read n f)) s (fun t => t.hbm = u.hbm ∧
      t.out.head? = some (.readData (if u.protHit a n = [] then memBytes (u.unitRead a n f) 0 n else zeros n)))) ∧
    (s.hdmMapped off data.length = true → hbmIn a data.length = true →
      Goes (.hdmAccess off (.write data back)) s (fun t => t.deck = u.deck ∧ t.sram = u.sram ∧
        (owes = false → t.cwys = u.cwys ∧
          t.hbm = if u.protHit a data.length = [] ∧ u.containerHit a data.length = [] then memPut u.hbm a data else u.hbm) ∧
        (owes = true → t.cwys = (writeBack off data u).cwys ∧ (memWf u.hbm = true →
          ∀ i < data.length, memRead t.hbm (a + i) = if own i then memRead u.hbm (a + i) else data.getD i 0)) ∧
        (memWf u.hbm = true → memWf t.hbm = true ∧ ∀ x, x < a ∨ a + data.length ≤ x → memRead t.hbm x = memRead u.hbm x))) ∧
    (s.bar2Mapped off n = false → Goes (.bar2Access off (.read n f)) s (fun t => t = { u with out := .readData (zeros n) :: u.out })) ∧
    (s.bar2Mapped off n = true → hbmIn b n = true → Goes (.bar2Access off (.read n f)) s (fun t => t.hbm = u.hbm ∧
      t.out.head? = some (.readData (memBytes (u.unitRead b n f) 0 n)))) ∧
    (s.bar2Mapped off data.length = true → hbmIn b data.length = true → Goes (.bar2Access off (.write data back)) s (fun t =>
      t = if u.containerHit b data.length = [] then { u with hbm := memPut u.hbm b data } else u)) ∧
    (s.hdmMapped off n = true → hbmIn a n = false → exec (.hdmAccess off (.read n f)) s = .fault (.hbmOutOfRange a)) ∧
    (s.bar2Mapped off n = true → hbmIn b n = false → exec (.bar2Access off (.read n f)) s = .fault (.hbmOutOfRange b)))

/-- CONFIG_REQUEST is answered with Retry Status in ROM and VERIFY (R386), with data from then on: the class code, a Type
0 header without further functions (R353), the capabilities that Table 15.1 uses and none that it marks "not used"
(R354), the DVSEC words that R356 states, and base address registers of the fixed sizes of Table 15.2 (R358). The
enables that configuration space holds take the value written. The places of the words are those of PCIe and CXL 3.1
(PRESUMED, log entry 28). The CXL link, translations and DOE (R353, R355, R357, R363): the loss of the link, a hot
reset and D3hot enter halt-safe, which stops every RUNNING Carriageway at its next Keystone; a link trained to
256-byte flits at x16 or x8 and 64 or 32 GT/s is in use, at x8 with lanes 8 to 15 untrained (R426); what a hot reset
clears is PRESUMED (log 39), and so are the layouts of DOE discovery and the CDAT (log 38); an invalidation drops its
cached page, with a PASID or without; DOE discovery and the CDAT answer once VERIFY has ended. -/
def Obligations.LinkEventsAndConfiguration : Prop :=
  (∀ (q : ConfigReq) (s : State), s.running →
    (s.mgt.stage = 1 ∨ s.mgt.stage = 2 → Goes (.configRequest q) s (fun t => t = { s with out := .config none :: s.out })) ∧
    (s.mgt.stage ≠ 1 → s.mgt.stage ≠ 2 → Goes (.configRequest q) s (fun t =>
      (∃ d, t.out = .config (some d) :: s.out) ∧ t.words = s.words ∧ t.mgt = s.mgt ∧
      (∀ b, q = .setCacheEnable b → t.host.cacheEn = b) ∧ (∀ b, q = .setMemEnable b → t.host.memEn = b) ∧
      (∀ b, q = .setBackInvalidate b → t.host.biEn = b) ∧ (∀ b, q = .setPasidEnable b → t.host.pasidEn = b) ∧
      (∀ b, q = .setAtsEnable b → t.host.atsEn = b) ∧
      (q = .readClass → t.out = .config (some [0, 0, 0x12]) :: s.out) ∧ (q = .readHeaderType → t.out = .config (some [0]) :: s.out) ∧
      (∀ n, n ≠ 0 → q = .readFunction n → t.out = .config (some [0xFF, 0xFF, 0xFF, 0xFF]) :: s.out) ∧
      (∀ c b, capPresent c = some b → q = .readCapability c → t.out = .config (some [BitVec.ofNat 8 (b2n b)]) :: s.out) ∧
      (q = .readCxlDvsec → t.out = .config (some [0x17, 0x40]) :: s.out) ∧
      (q = .readRegisterLocator → t.out = .config (some [0, 1, 0xFF, 0, 0, 0, 0, 0]) :: s.out) ∧
      (∀ n v, q = .writeBar n v → t.host.bars = if n < 6 then tset s.host.bars n (v % 2 ^ 32) else s.host.bars))) ∧
    (∀ n, n < 6 → tgetD s.host.bars (n / 2 * 2) 0 = 0xFFFFFFFF → tgetD s.host.bars (n / 2 * 2 + 1) 0 = 0xFFFFFFFF →
      s.barWord n = if n % 2 = 1 then (if n = 3 then 0xFFFFFFF0 else 0xFFFFFFFF)
        else if n = 0 then 0xFF000004 else if n = 2 then 0xC else 0xFFFF0004)) ∧
  (∀ s : State, s.running →
    let halts : State → Prop := fun t => t.ras.haltSafe = true ∧
      ∀ c < 64, s.inState c [.running] = true → (t.cwy c).life.stopPend = max (s.cwy c).life.stopPend 5
    Goes .cxlLinkLoss s (fun t => halts t ∧ t.host.width = 0) ∧
    Goes .hotReset s (fun t => halts t ∧ t.host.cacheEn = false ∧ t.host.memEn = false ∧ t.host.d3 = false ∧ t.host.comp = [] ∧
      t.words = s.words ∧ t.hbm = s.hbm) ∧
    Goes .d3hot s (fun t => halts t ∧ t.host.d3 = true) ∧
    (∀ w r, w = 16 ∨ w = 8 → r = 64 ∨ r = 32 → Goes (.cxlLinkTrained w r true) s (fun t => t = { s with host := { s.host with width := w, rate := r, lanes := 2 ^ w - 1 } })) ∧
    (∀ w r, w ≠ 16 → w ≠ 8 → NoEffect (.cxlLinkTrained w r true) s) ∧ (∀ w r, NoEffect (.cxlLinkTrained w r false) s) ∧
    (∀ pasid page, Goes (.atsInvalidation pasid page) s (fun t =>
      t = { s with host := { s.host with atc := s.host.atc.filter (· != (pasid, page)) } } ∧ (pasid, page) ∉ t.host.atc)) ∧
    (∀ i, s.mgt.doeOn = true → Goes (.doeDiscovery i) s (fun t => t = { s with out := .doe (discoveryEntry i) :: s.out })) ∧
    (∀ i, s.mgt.doeOn = true → Goes (.cdatTableAccess i) s (fun t => t = { s with out := .doe (s.cdatEntry i) :: s.out })) ∧
    (∀ i, s.mgt.doeOn = false → NoEffect (.doeDiscovery i) s ∧ NoEffect (.cdatTableAccess i) s))

/-! ### Measurement, the Trestle chain and Pelind (sections 14 and 16) -/

/-- The SPDM responder (R410): on an open path a request of version 1.4, of its least length and in the order of the
protocol is answered and enters the transcripts, a challenge and signed measurements with the signature over theirs;
any other is answered with an ERROR; on a path that is not open nothing is answered. Codes, layouts, transcripts and
the signing context are PRESUMED from SPDM 1.4, and the bytes of sizes that the spec does not give are free values
(log 80). A message that comes in several operands may be split anywhere. -/
def Obligations.SpdmAnswersInOrder : Prop :=
  ∀ (p : SpdmPath) (m : Bytes) (j k : Nat) (s : State), s.running →
    let x := s.conn p
    let ms := m.drop j
    let tells : Bytes → State → Prop := fun r t => t.out = .spdm p r :: s.out
    let err : Nat → Nat → State → Prop := fun e d t => t = { s with out := .spdm p (spdmHead 0x14 0x7F e d) :: s.out }
    let bad : SpdmConn → State → Prop := fun y t => tells (spdmHead 0x14 0x7F 1 0) t ∧ t.conn p = y
    let n := (List.range 32).map (Config.random s.draws)
    let fresh : SpdmConn := { x with measures := [] }
    (s.spdmOpen p = true →
      (spdmCode m = 0x84 → let r := spdmHead 0x10 0x04 0 0 ++ leBytes 2 0x0100 ++ leBytes 2 0x1400
        (getLe m 0 1 = 0x10 → Goes (.getVersion ⟨p, m⟩) s (fun t => tells r t ∧ t.conn p = { version := true, agreed := m ++ r })) ∧
        (getLe m 0 1 ≠ 0x10 → Goes (.getVersion ⟨p, m⟩) s (err 0x41 0))) ∧
      (∀ e ∈ ([(0xE1, .getCapabilities ⟨p, m⟩, x.version && !x.caps, 20), (0xE3, .negotiateAlgorithms p (m.take j) ms, x.caps && !x.algs, 32),
          (0x81, .getDigests ⟨p, m⟩, x.algs, 4), (0x82, .getCertificate p (m.take j) (ms.take k) (ms.drop k), x.algs, 8), (0x83, .challenge p (m.take j) ms, x.algs, 44),
          (0xE0, .getMeasurements p (m.take j) (ms.take k) (ms.drop k), x.algs, if bit (getLe m 2 1) 0 then 45 else 12)] : List (Nat × Instr × Bool × Nat)), spdmCode m = e.1 →
        (getLe m 0 1 ≠ 0x14 → Goes e.2.1 s (err 0x41 0)) ∧
        (getLe m 0 1 = 0x14 → e.2.2.1 = false → Goes e.2.1 s (err 4 0)) ∧
        (getLe m 0 1 = 0x14 → e.2.2.1 = true → m.length < e.2.2.2 → Goes e.2.1 s (err 1 0))) ∧
      (getLe m 0 1 = 0x14 →
        (spdmCode m = 0xE1 → x.version = true → x.caps = false → 20 ≤ m.length → Goes (.getCapabilities ⟨p, m⟩) s (fun t =>
          let z := fun (i n : Nat) => (List.range n).map (fun k => Config.spdmSizeByte (i + k))
          let r := spdmHead 0x14 0x61 0 0 ++ zeros 1 ++ z 0 1 ++ zeros 2 ++ leBytes 4 0x16 ++ z 1 8
          tells r t ∧ t.conn p = { fresh with caps := true, agreed := x.agreed ++ m ++ r })) ∧
        (spdmCode m = 0xE3 → x.caps = true → x.algs = false → 32 ≤ m.length → Goes (.negotiateAlgorithms p (m.take j) ms) s (fun t =>
          let r := spdmHead 0x14 0x63 0 0 ++ leBytes 2 36 ++ leBytes 1 1 ++ zeros 1 ++ leBytes 4 0x40 ++ zeros 4 ++ leBytes 4 0x20 ++
            leBytes 4 2 ++ zeros 12
          if bit (getLe m 12 4) 5 = true ∧ bit (getLe m 16 4) 1 = true then tells r t ∧ t.conn p = { fresh with algs := true, agreed := x.agreed ++ m ++ r }
          else bad fresh t)) ∧
        (x.algs = true →
          (spdmCode m = 0x81 → 4 ≤ m.length → Goes (.getDigests ⟨p, m⟩) s (fun t => let r := spdmHead 0x14 0x01 1 1 ++ sha3 certChain
            tells r t ∧ t.conn p = { fresh with certs := x.certs ++ m ++ r })) ∧
          (spdmCode m = 0x82 → 8 ≤ m.length → Goes (.getCertificate p (m.take j) (ms.take k) (ms.drop k)) s (fun t =>
            let off := getLe m 4 2
            let part := (certChain.drop off).take (getLe m 6 2)
            let r := spdmHead 0x14 0x02 0 0 ++ leBytes 2 part.length ++ leBytes 2 (Config.chainLen - off - part.length) ++ part
            if getLe m 2 1 % 16 = 0 ∧ off < Config.chainLen then tells r t ∧ t.conn p = { fresh with certs := x.certs ++ m ++ r } else bad fresh t)) ∧
          (spdmCode m = 0x83 → 44 ≤ m.length → Goes (.challenge p (m.take j) ms) s (fun t =>
            let kind := getLe m 3 1
            let r := spdmHead 0x14 0x03 0 1 ++ sha3 certChain ++ n ++ s.summary kind ++ zeros 2 ++ slice m 36 8
            if getLe m 2 1 = 0 ∧ (kind = 0 ∨ kind = 1 ∨ kind = 0xFF) then
              tells (r ++ signOver challengeContext (x.agreed ++ x.certs ++ m ++ r)) t ∧ t.conn p = { fresh with certs := [] } ∧ t.draws = s.draws + 1
            else bad fresh t)) ∧
          (spdmCode m = 0xE0 → (if bit (getLe m 2 1) 0 then 45 else 12) ≤ m.length → Goes (.getMeasurements p (m.take j) (ms.take k) (ms.drop k)) s (fun t =>
            let i := getLe m 3 1
            let sign := bit (getLe m 2 1) 0
            let idx := if i = 0 then [] else if i = 0xFF then allBlocks else [i]
            let rec_ := idx.flatMap s.blockBytes
            let r := spdmHead 0x14 0x60 (if i = 0 then allBlocks.length else 0) 0 ++ leBytes 1 idx.length ++ leBytes 3 rec_.length ++ rec_ ++ n ++
              zeros 2 ++ slice m ((if sign then 45 else 12) - 8) 8
            if (i = 0 ∨ i = 0xFF ∨ (s.measurement i).isSome = true) ∧ (sign = true → getLe m 36 1 % 16 = 0) then t.draws = s.draws + 1 ∧
              if sign then tells (r ++ signOver measuresContext (x.agreed ++ x.measures ++ m ++ r)) t ∧ t.conn p = { fresh with certs := [] }
              else tells r t ∧ t.conn p = { x with certs := [], measures := x.measures ++ m ++ r }
            else bad x t)))) ∧
      Goes (.spdmUnsupportedRequest p m) s (err 7 (spdmCode m))) ∧
    (s.spdmOpen p = false → ∀ i ∈ ([.getVersion ⟨p, m⟩, .getCapabilities ⟨p, m⟩, .getDigests ⟨p, m⟩, .negotiateAlgorithms p (m.take j) ms, .getCertificate p (m.take j) (ms.take k) (ms.drop k),
      .challenge p (m.take j) ms, .getMeasurements p (m.take j) (ms.take k) (ms.drop k), .spdmUnsupportedRequest p m] : List Instr), NoEffect i s)

/-- Trestle frames (R400, R401, R403, R404, R406): a frame leaves by the other ball unless one of the two is isolated or
it came as its ball was driven; ENUMERATE gives an unaddressed device the next address; IDENT and ALERT are answered
at any stage; RESPONSE and a reserved frame are only forwarded; driving stops at two opposite bit periods and the
third such frame within 1 s isolates the ball, as a stuck ball does; clr_iso, in its turn, ends it. The model's own:
the CRC formed anew on an ENUMERATE that goes on, and a count that starts afresh with an isolation (log 197); frames
that meet or fail their CRC (log 30); the bitmap answered before its clear (log 31). -/
def Obligations.TrestleFramesAreForwardedAndAnswered : Prop :=
  ∀ (f : THead) (s : State), s.running →
    let fwd := fun (typ : Nat) (pl : Bytes) (t : State) =>
      if f.clash || s.isolated f.ball || s.isolated (if f.ball = 0 then 1 else 0) then t = s
      else
        let bits := trestleBits (trestleHead f.dst f.src typ f.seq f.len.toNat ++ pl ++ leBytes 4 f.crc.toNat)
        t = { s with out := .trestle (if f.ball = 0 then 1 else 0) bits :: s.out }
    let en := fun (n : Nat) (r : Bool) => leBytes 1 n ++ leBytes 1 (b2n r)
    (∀ pl, Goes (.response f pl) s (fwd 0x03 pl)) ∧ (∀ typ pl, Goes (.reservedTrestleFrame f typ pl) s (fwd typ pl)) ∧
    (∀ next restart, s.acts f 0x01 (en next restart) = false → Goes (.enumerate f next restart) s (fwd 0x01 (en next restart))) ∧
    (∀ next, s.acts f 0x01 (en next false) = true → s.chain.addr = none → next ≤ 63 → Goes (.enumerate f next false) s (fun t =>
      t.chain.addr = some next ∧ t.words = s.words ∧
      (f.clash = false → s.isolated (if f.ball = 0 then 1 else 0) = false → t.out = .trestle (if f.ball = 0 then 1 else 0)
        (trestleBits (trestleFrame f.dst f.src 0x01 f.seq (en (next + 1) false))) :: s.out))) ∧
    (∀ a next, s.acts f 0x01 (en next false) = true → s.chain.addr = some a → Goes (.enumerate f next false) s (fun t => t.chain.addr = some a)) ∧
    (∀ next, s.acts f 0x01 (en next true) = true → next ≤ 63 → Goes (.enumerate f next true) s (fun t => t.chain.addr = some next)) ∧
    (∀ a, s.answers f a 0x02 [] → Goes (.ident f) s (Responds f a 0 0 (deviceTag ++ leBytes 1 s.mgt.stage ++ zeros 3 ++ leBytes 4 s.ledger.boot))) ∧
    (∀ a clear, s.answers f a 0x21 (leBytes 1 (b2n clear)) → Goes (.alert f clear) s (fun t => Responds f a 0 0 (leBytes 4 s.alertBits) t ∧
      t.chain.alertLatch = if clear then 0 else s.chain.alertLatch)) ∧
    (∀ ball n, ball < 2 → 2 ≤ n → s.isolated ball = false → Goes (.ballContention ball n) s (fun t => t.out = .ballOff ball :: s.out ∧
      t.isolated ball = decide (2 ≤ (s.contentions.filter (fun e => e.1 == ball)).length) ∧
      t.isolated (1 - ball) = s.isolated (1 - ball) ∧ t = { s with
        out := t.out, chain := { s.chain with isoDin := t.chain.isoDin, isoDout := t.chain.isoDout, contended := t.chain.contended } })) ∧
    (∀ ball n, n < 2 ∨ s.isolated ball = true → NoEffect (.ballContention ball n) s) ∧
    Goes (.ballStuckLow 1) s (fun t => t = { s with
      chain := { s.chain with isoDout := true, contended := t.chain.contended } }) ∧
    Goes (.ballStuckLow 0) s (fun t => t = { s with
      chain := { s.chain with isoDin := true, contended := t.chain.contended } }) ∧
    (∀ p, s.waitsBehind p = false → Goes (.clrIso p) s (fun t => t = { s with chain := { s.chain with isoDin := false, isoDout := false } })) ∧
    (∀ p, s.waitsBehind p = true → Goes (.clrIso p) s (fun t => t.chain.isoDin = s.chain.isoDin ∧ t.chain.isoDout = s.chain.isoDout ∧
      t.chain.held.map (·.instr) = s.chain.held.map (·.instr) ++ [.clrIso p]))

/-- Fleet orders (R341, R406, R410, R412, R414 to R417): in service a REG_READ is answered with its words, a misaligned
one with zeros and one of no or too many words with 0x61, and one that comes while an earlier access of the fleet has
no outcome waits for it (the model's inference, log 198); a REG_WRITE within one block that takes fleet writes stores
the words of its frame as one order, what each card says of a word and nothing of a locked one, or waits in its turn,
another is answered with 0x61 or 0x69 and changes nothing; JOB_KEY sets the key of a Carriageway or leaves its state
2, answered OK (the model's inference, log 34); an SPDM frame is answered by the responder. -/
def Obligations.FleetOrdersAreAnswered : Prop :=
  ∀ (f : THead) (a : Nat) (s : State), s.mgt.stage = 8 →
    let rd := fun (off n : Nat) => leBytes 4 off ++ leBytes 1 n
    let wr := fun (off : Nat) (ws : List Word) =>
      leBytes 4 off ++ leBytes 1 ws.length ++ zeros 3 ++ ws.flatMap (fun w => leBytes 8 w.toNat)
    (∀ off words, s.answers f a 0x10 (rd off words) →
      (s.fleetPends = false → off % 8 = 0 → 1 ≤ words → words ≤ 16 → Goes (.regRead f off words) s (fun t =>
        let r := regReads .fleet words off (forward f 0x10 (rd off words) s)
        Responds f a 0 0 (r.1.flatMap (leBytes 8)) t ∧ t.words = s.words ∧ t.chain.capFleet = r.2.chain.capFleet)) ∧
      (s.fleetPends = false → off % 8 ≠ 0 → 1 ≤ words → words ≤ 16 → Goes (.regRead f off words) s (fun t =>
        Responds f a 0 0 (zeros (8 * words)) t ∧ t.words = s.words)) ∧
      (s.fleetPends = true → Goes (.regRead f off words) s (fun t =>
        t = { s with out := t.out, chain := { s.chain with held := s.chain.held ++ [{ slot := s.chain.lastFleet, instr := .regRead f off words }] } })) ∧
      (s.fleetPends = false → words < 1 ∨ 16 < words → Goes (.regRead f off words) s (fun t =>
        Responds f a 5 0x61 [] t ∧ t.words = s.words))) ∧
    (∀ off ws, s.answers f a 0x11 (wr off ws) → 1 ≤ ws.length → ws.length ≤ 16 → blockOf off = blockOf (off + 8 * ws.length - 1) →
      (fleetTakes off = true → (frameOffs off ws.length).any (s.accessWaits .fleet) = false → Goes (.regWrite f off ws) s (fun t =>
        t = keepNv s (applyFrame f off ws (forward f 0x11 (wr off ws) s)))) ∧
      (fleetTakes off = true → (frameOffs off ws.length).any (s.accessWaits .fleet) = true → Goes (.regWrite f off ws) s (fun t =>
        t.words = s.words ∧ t.cwys = s.cwys ∧ t.chain.held.map (·.instr) = s.chain.held.map (·.instr) ++ [.regWrite f off ws])) ∧
      (fleetTakes off = false → Goes (.regWrite f off ws) s (fun t => Responds f a 5 0x69 [] t ∧ t.words = s.words ∧ t.hbm = s.hbm))) ∧
    (∀ off w m, s.answers f a 0x11 (wr off [w]) → blockOf off = blockOf (off + 7) → fleetTakes off = true → s.accessWaits .fleet off = false →
      s.chain.slot = none → (rwlMask off = some m → Goes (.regWrite f off [w]) s (fun t => Responds f a 0 0 [] t ∧
        t.word off = (if s.rwlLocked off then s.word off else w.toNat &&& m) ∧ (∀ o, o ≠ off → o ≠ 0xD0008 → t.word o = s.word o) ∧
        t.pw = s.pw ∧ t.hbm = s.hbm)) ∧
      (off = 0xB0000 → Goes (.regWrite f off [w]) s (fun t => Responds f a 0 0 [] t ∧
        t.words = tset s.words off (BitVec.ofNat 64 (thmStored w.toNat)) ∧ t.cwys = s.cwys)) ∧
      (off = 0xC0000 → Goes (.regWrite f off [w]) s (fun t => Responds f a 0 0 [] t ∧
        t.words = tset s.words off (BitVec.ofNat 64 (calStored w.toNat))))) ∧
    (∀ off ws, s.answers f a 0x11 (wr off ws) → ws.length < 1 ∨ 16 < ws.length ∨ blockOf off ≠ blockOf (off + 8 * ws.length - 1) →
      Goes (.regWrite f off ws) s (fun t => Responds f a 5 0x61 [] t ∧ t.words = s.words ∧ t.hbm = s.hbm)) ∧
    (∀ c env, s.answers f a 0x20 (leBytes 1 c ++ zeros 15 ++ slice env 0 1664) → c < 64 → Goes (.jobKey f c env) s (fun t => Responds f a 0 0 (leBytes 1 (t.cwy c).jk.state) t ∧
      match jobKeyOf env with
      | some k => (t.cwy c).jk = { state := 1, key := k }
      | none => (t.cwy c).jk = { (s.cwy c).jk with state := 2 })) ∧
    (∀ c env, s.answers f a 0x20 (leBytes 1 c ++ zeros 15 ++ slice env 0 1664) → 64 ≤ c → Goes (.jobKey f c env) s (fun t => Responds f a 5 0x61 [] t ∧ t.cwys = s.cwys)) ∧
    (∀ m, s.answers f a 0x30 m → Goes (.spdm f m) s (fun t => t.words = s.words ∧ t.cwys = s.cwys ∧
      let r := spdmReply .trestle m (forward f 0x30 m s)
      Responds f a 0 0 r.1 t ∧ t.conn .trestle = r.2.conn .trestle ∧ t.conn .doe = s.conn .doe))

/-- Training (R329 to R331, Table 14.5): signal detect, lane identification and the identity exchange take a port from
phase to phase, each that does not complete takes it DOWN; at its end the latency and the match decide between UP,
MISWIRED and LONG, LONG first (the model's inference, log 122: Table 14.5 gives no order). Lanes in service (R264,
R334): a lost lock on a port that is UP with its spare free sends the lane-change frame and moves the lane at the next
change, with the spare in use, or taken by another lane that moves, takes the port DOWN; the neighbour's change frame
does the same here; the move puts the lane onto the spare and ends the lane's recovery action. The payload of the
lane-change frame is the model's (log 125, UNVERIFIED), and that a spare promised to another moving lane counts as in
use is its inference, R334 naming only one already used (log 128). -/
def Obligations.PortsTrainAndMoveLanes : Prop :=
  (∀ (p : Nat) (s : State), s.running →
    let x := s.port p
    (x.state = 1 → x.phase = 0 →
      Goes (.signalDetect p .light) s (fun t => t.port p = { x with phase := 1 }) ∧
      Goes (.signalDetect p .crossed) s (fun t => t.port p = { x with phase := 1, swapped := !x.swapped }) ∧
      Goes (.signalDetect p .dark) s (fun t => (t.port p).state = 5)) ∧
    (∀ locked, x.state = 1 → x.phase = 1 → Goes (.laneIdentification p locked) s (fun t =>
      if ((List.range 9).filter (bit locked)).length < 8 then (t.port p).state = 5
      else t.port p = { x with phase := 2, laneUp := locked % 512, spareUsed := ((List.range 9).filter (bit locked)).length == 8 })) ∧
    (x.state = 1 → x.phase = 2 → Goes (.identityExchange p none) s (fun t => (t.port p).state = 5)) ∧
    (∀ i : IdFrame, x.state = 1 → x.phase = 2 → Goes (.identityExchange p (some i)) s (fun t => (t.port p).phase = 3 ∧
      (t.port p).state = 1 ∧ (t.port p).nbrCoord = i.coord ∧ (t.port p).nbrMap = i.map % 8)) ∧
    (x.state = 1 → x.phase = 3 → Goes (.trainingDone p none) s (fun t => (t.port p).state = 5)) ∧
    (∀ n, x.state = 1 → x.phase = 3 → Goes (.trainingDone p (some n)) s (fun t => (t.port p).lat = min 511 n ∧
      (t.port p).state = if 180 < min 511 n then 4 else if s.isMatched p then 2 else 3)) ∧
    (x.state ≠ 1 → (∀ r, NoEffect (.signalDetect p r) s) ∧ (∀ l, NoEffect (.laneIdentification p l) s) ∧
      (∀ i, NoEffect (.identityExchange p i) s) ∧ (∀ n, NoEffect (.trainingDone p n) s)) ∧
    (∀ i : IdFrame, x.state = 2 ∨ x.state = 3 → Goes (.identityFrame p i) s (fun t => (t.port p).nbrCoord = i.coord ∧
      (t.port p).nbrMap = i.map % 8)) ∧
    (∀ i, x.state ≠ 2 → x.state ≠ 3 → NoEffect (.identityFrame p i) s)) ∧
  (∀ (p lane : Nat) (s : State), s.running →
    let x := s.port p
    (x.state = 2 → x.moving = none → x.spareUsed = false → Goes (.laneLossOfLock p lane true) s (fun t =>
      (t.port p).state = 2 ∧ (t.port p).moving = some lane ∧ (t.port p).ctl = x.ctl ++ [leBytes 1 1 ++ leBytes 1 lane] ∧
      ∀ c, (t.cwy c).life = (s.cwy c).life)) ∧
    (x.state = 2 → x.moving ≠ some lane → x.spareUsed = true ∨ x.moving ≠ none → s.ras.queue = [] →
      Goes (.laneLossOfLock p lane true) s (fun t => (t.port p).state = 5)) ∧
    (∀ b, x.state ≠ 2 → NoEffect (.laneLossOfLock p lane b) s ∧ NoEffect (.laneChangeFrame p lane) s) ∧
    (x.state = 2 → x.spareUsed = false → x.moving = none ∨ x.moving = some lane → Goes (.laneChangeFrame p lane) s (fun t => t.port p = { x with moving := some lane })) ∧
    (x.state = 2 → x.spareUsed = true ∨ (x.moving ≠ none ∧ x.moving ≠ some lane) → s.ras.queue = [] → Goes (.laneChangeFrame p lane) s (fun t => (t.port p).state = 5)) ∧
    (∀ l, x.moving = some l → x.spareUsed = false → s.ras.queue = [] → Goes (.laneSpareMove p) s (fun t =>
      t.port p = { x with moving := none, spareUsed := true, spareFor := l } ∧
      t.ras.running = s.ras.running.filter (fun d => d.unit != .lane p l))) ∧
    (x.moving = none → NoEffect (.laneSpareMove p) s))

/-- Link registers (R329, R332, R336, R347) by the host in READY with no order held: LNK_TORUS is stored while every
Carriageway is DISABLED and its coordinate lies in its size; a port's map is stored when R332 allows it; a disabled
port is dark; a retrain, by order or from DOWN by its timer, starts training where ports may train, and leaves no
control frame waiting; a through grant from the port itself is refused. -/
def Obligations.LinkRegistersMoveThePorts : Prop :=
  ∀ s : State, s.running → s.mgt.stage = 8 → s.holding = false →
    (∀ w : Word, s.enabledCwys = [] → torusBad w.toNat = false → Goes (.lnkTorusWrite .host w) s (fun t =>
      t.word 0xD0000 = torusStored w.toNat)) ∧
    (∀ w : Word, s.enabledCwys ≠ [] ∨ torusBad w.toNat = true → Goes (.lnkTorusWrite .host w) s (fun t =>
      t.word 0xD0000 = s.word 0xD0000 ∧ t.ports = s.ports ∧ fld (t.word 0xD0008) 48 8 = 5)) ∧
    (∀ port d, port < 6 → d < 8 →
      (s.mapCode port d = 0 → Goes (.portMapWrite .host port d) s (fun t => t.portMap port = d)) ∧
      (s.mapCode port d ≠ 0 → Goes (.portMapWrite .host port d) s (fun t => t.portMap port = s.portMap port ∧ t.ports = s.ports))) ∧
    (∀ port, port < 6 → s.ras.queue = [] →
      Goes (.portDisable .host port true) s (fun t => (t.port port).state = 0 ∧ t.portOff port = true) ∧
      (s.portOff port = false → s.mayTrain = true → Goes (.retrain .host port) s (fun t =>
        (t.port port).state = (if s.axisUnused port then 6 else 1) ∧ (t.port port).phase = 0 ∧ (t.port port).laneUp = 0 ∧ (t.port port).ctl = [])) ∧
      (s.portOff port = false → s.mayTrain = true → (s.port port).state = 5 → Goes (.retrainTimer port) s (fun t =>
        (t.port port).state = (if s.axisUnused port then 6 else 1) ∧ (t.port port).phase = 0 ∧ t.words = s.words)) ∧
      ((s.port port).state ≠ 5 → NoEffect (.retrainTimer port) s)) ∧
    (∀ q (w : Word), q < 6 →
      (fld w.toNat 16 3 ≠ q → Goes (.lnkThruWrite .host q w) s (fun t =>
        t.word (0xD0200 + 8 * q) = w.toNat % 2 ^ 16 + fld w.toNat 16 3 * 2 ^ 16 + fld w.toNat 31 1 * 2 ^ 31 ∧ t.ports = s.ports)) ∧
      (fld w.toNat 16 3 = q → Goes (.lnkThruWrite .host q w) s (fun t =>
        t.word (0xD0200 + 8 * q) = s.word (0xD0200 + 8 * q) ∧ fld (t.word 0xD0008) 48 8 = 5)))

/-- Frames that leave and pass (R324 to R328, R331, R338, R342, R346, R347, R352), each with its parity: slot 0 opens a
superframe; a slot of a Carriageway sends its first waiting frame, forwarded, sent again or of a Keystone, else the
next data frame of its first transfer, once the flits of that have been read from SRAM, else an idle frame; a slot
that is nobody's sends idle frames, but in a through slot the frames on closures that wait (the model's inference, log
181). Slots 0 to 55 carry open directions and 56 to 62 closed ones; a frame of this member is encrypted as it leaves,
with its next counter. Slot 63 sends the waiting control frame or an identity frame every 1 ms, of a MISWIRED port
identity frames alone; a frame for another member joins the port of its route; a through frame leaves by its granted
port when that is UP, at most 7 a superframe, and is else dropped, uncounted where the port is not UP (the model's
choice, log 182); a NAK queues the kept frame again; a reserved or unknown frame is counted misrouted.
DATA_FRAME_ARRIVAL (R339, R344) on a port that is UP, of a frame for this member that no through grant takes: the
transfer's arrival is noted, complete with its last frame; the flits of a frame whose CRC and tag hold stand decrypted
in the receive buffer, and every byte of Abutment SRAM outside the buffer's flits reads as it does once every flit due
by now has arrived; a tag that fails is counted. -/
def Obligations.FramesLeavePassAndArrive : Prop :=
  (∀ (p : Nat) (b : Bytes) (s : State), s.running →
    let u := landNow s
    let x := u.port p
    let own : Nat → Bytes → Bool := fun c b => fSrc b == u.self c && allZero (fMac b)
    let sent : Nat → Bytes → Output := fun c b => .frame p (fecEncode (if own c b then (sealFrame c p b u).1 else b))
    let key : Nat → Bytes → JobKey := fun c b =>
      let jk := (u.cwy c).jk
      if own c b then { jk with send := tset jk.send (4 * p + fVc b) (tgetD jk.send (4 * p + fVc b) 0 + 1) } else jk
    (∀ slot, let v := if slot = 0 then u.modPort p (fun y => { y with thruSent := 0 }) else u
      let okF : Nat × Bool × Bytes → Bool := fun e => match tget x.slots slot with
        | some c => e.1 == c && e.2.1 == decide (56 ≤ slot)
        | none => decide (56 ≤ slot) && e.2.1
      let okX : Xfer → Bool := fun y => match tget x.slots slot with
        | some c => y.cwy == c && u.closed c y.dir == decide (56 ≤ slot)
        | none => false
      (x.state ≠ 2 → x.state ≠ 3 ∨ slot ≠ 63 → Goes (.frameTransmit p slot) s (fun t => t = v)) ∧
      (x.state = 2 → slot < 63 →
        (∀ pre c d b post, x.fwd = pre ++ (c, d, b) :: post → (∀ e ∈ pre, okF e = false) → okF (c, d, b) = true →
          Goes (.frameTransmit p slot) s (fun t => t.out = sent c b :: u.out ∧ (t.cwy c).jk = key c b ∧
            t.port p = { v.port p with fwd := pre ++ post })) ∧
        ((∀ e ∈ x.fwd, okF e = false) → ∀ pre y post, x.xfers = pre ++ y :: post → (∀ z ∈ pre, okX z = false) → okX y = true →
          Goes (.frameTransmit p slot) s (fun t =>
            let k := min 6 (y.flits - y.sent)
            let last := decide (y.flits ≤ y.sent + k)
            let d := frameData (frameHead 1 p (if u.closed y.cwy y.dir then 1 else 0) last (u.cwy y.cwy).run.parity (u.jobId y.cwy) y.dmember
              (u.self y.cwy) y.rxbuf k y.tag y.sent 0) (slice y.data (64 * y.sent) (64 * k)) []
            if 64 * (y.sent + k) ≤ y.data.length then t.out = sent y.cwy d :: u.out ∧ (t.cwy y.cwy).jk = key y.cwy d ∧
              t.port p = { v.port p with xfers := if last then pre ++ post else { y with sent := y.sent + k } :: (pre ++ post) }
            else t = { v with out := .frame p (fecEncode (idleFrame p)) :: u.out })) ∧
        ((∀ e ∈ x.fwd, okF e = false) → (∀ y ∈ x.xfers, okX y = false) → Goes (.frameTransmit p slot) s (fun t =>
          t = { v with out := .frame p (fecEncode (idleFrame p)) :: u.out })))) ∧
    (∀ d rest, x.state = 2 → x.ctl = d :: rest → Goes (.frameTransmit p 63) s (fun t =>
      t.out = .frame p (fecEncode (controlFrame p d)) :: u.out ∧ t.port p = { x with ctl := rest })) ∧
    (x.state = 3 ∨ (x.state = 2 ∧ x.ctl = []) → Goes (.frameTransmit p 63) s (fun t =>
      if x.lastId + 100000 ≤ u.pw.refTicks then t.out = .frame p (fecEncode (controlFrame p (u.identityPayload p))) :: u.out ∧
        t.port p = { x with lastId := u.pw.refTicks }
      else t = if x.state = 2 then { u with out := .frame p (fecEncode (idleFrame p)) :: u.out } else u)) ∧
    (∀ c d q, s.jobCwy (fJob b) = some c → fDst b ≠ s.self c → s.route c (s.here c) (s.memberCoord c (fDst b)) = some d →
      s.outPort c d = some q → Goes (.frameForward p b) s (fun t => t.port q = { s.port q with fwd := (s.port q).fwd ++ [(c, s.closed c d, b)] })) ∧
    (s.jobCwy (fJob b) = none → Goes (.frameForward p b) s (fun t => (t.port p).misrouted = satAdd 16 (s.port p).misrouted 1 ∧ t.sram = s.sram)) ∧
    (∀ q, s.grantPort p b = some q →
      ((s.port q).state ≠ 2 → NoEffect (.throughFrame p b) s) ∧
      ((s.port q).state = 2 → (s.port q).thruSent < 7 → Goes (.throughFrame p b) s (fun t => t.out = .frame q (fecEncode b) :: s.out ∧
        t.port q = { s.port q with thruSent := (s.port q).thruSent + 1 })) ∧
      ((s.port q).state = 2 → 7 ≤ (s.port q).thruSent → Goes (.throughFrame p b) s (fun t => (t.port p).misrouted = satAdd 16 (s.port p).misrouted 1))) ∧
    (∀ c i e, (s.cwy c).jk.sent.find? (fun e => e.1 % 256 == i && e.2.1 == p && fType e.2.2 == 3) = some e →
      Goes (.nakFrame p c i) s (fun t => t.port p = { s.port p with fwd := (s.port p).fwd ++ [(c, fVc e.2.2 == 1, e.2.2)] })) ∧
    (reservedFrame b = true → Goes (.reservedFtypeFrame p b) s (fun t => (t.port p).misrouted = satAdd 16 (s.port p).misrouted 1)) ∧
    (reservedFrame b = false → NoEffect (.reservedFtypeFrame p b) s)) ∧
  (∀ (p : Nat) (wire : Bytes) (lk : Option Nat) (s : State), s.running →
    let v := landNow s
    ((v.port p).state ≠ 2 → Goes (.dataFrameArrival p wire lk) s (fun t => t = v)) ∧
    ((v.port p).state = 2 → memWf v.sram = true → Goes (.dataFrameArrival p wire lk) s (fun t => t.hbm = v.hbm ∧ t.deck = v.deck ∧
      let b := (fecDecode wire).getD (slice wire 0 416)
      let good := (fecDecode wire).isSome && crc32c (slice b 0 412) == getLe b 412 4
      match v.jobCwy (fJob b) with
      | none => t.sram = v.sram
      | some c =>
        let d := portDie p
        let g := v.sramGrant c d
        let u := 1024 * g.1 + 1024 * fRxbuf b + fOff b
        let n := nextCtr (tgetD (v.cwy c).jk.recv (32 * fSrc b + 4 * fPort b + fVc b) 0) (fCtr b)
        memWf t.sram = true ∧
        (∀ a, a < sramAddr d u ∨ sramAddr d u + 64 * min 6 (fFlits b) ≤ a → memRead t.sram a = memRead v.sram a) ∧
        if reservedFrame b = false ∧ fType b = 1 ∧ v.grantPort p b = none ∧ fDst b = v.self c then
          (∃ e ∈ (t.cwy c).arrivals, e.parity = fParity b ∧ e.rxbuf = fRxbuf b ∧ e.tag = fTag b ∧ e.port = p ∧
            (fLast b = true → e.cyc.isSome = true)) ∧
          (good = true → match gcmOpen (v.cwy c).jk.key (frameIv (fSrc b) (fPort b) (fVc b) n) (slice b 0 16) (fPayload b) (fMac b) with
            | some pt => ∀ i < min 6 (fFlits b), u + i < 1024 * (g.1 + g.2) → memBytes t.sram (sramAddr d (u + i)) 64 = slice pt (64 * i) 64
            | none => (t.port p).authFail = satAdd 16 (v.port p).authFail 1)
        else t.sram = v.sram)))
end

