-- ==== Sys2Proof/Laws/State.lean ====
section
/-! SUPPORT. What each update of a part of the state leaves alone, field by field, and what it changes. -/

namespace Sys2Proof.Machine

/-! ### modCwy -/

@[simp] theorem State.modCwy_pw (s : State) (c : Nat) (f : Cwy → Cwy) : (s.modCwy c f).pw = s.pw := rfl
@[simp] theorem State.modCwy_en (s : State) (c : Nat) (f : Cwy → Cwy) : (s.modCwy c f).en = s.en := rfl
@[simp] theorem State.modCwy_thm (s : State) (c : Nat) (f : Cwy → Cwy) : (s.modCwy c f).thm = s.thm := rfl
@[simp] theorem State.modCwy_words (s : State) (c : Nat) (f : Cwy → Cwy) : (s.modCwy c f).words = s.words := rfl
@[simp] theorem State.modCwy_host (s : State) (c : Nat) (f : Cwy → Cwy) : (s.modCwy c f).host = s.host := rfl
@[simp] theorem State.modCwy_mgt (s : State) (c : Nat) (f : Cwy → Cwy) : (s.modCwy c f).mgt = s.mgt := rfl
@[simp] theorem State.modCwy_chain (s : State) (c : Nat) (f : Cwy → Cwy) : (s.modCwy c f).chain = s.chain := rfl
@[simp] theorem State.modCwy_nv (s : State) (c : Nat) (f : Cwy → Cwy) : (s.modCwy c f).nv = s.nv := rfl
@[simp] theorem State.modCwy_ledger (s : State) (c : Nat) (f : Cwy → Cwy) : (s.modCwy c f).ledger = s.ledger := rfl
@[simp] theorem State.modCwy_bays (s : State) (c : Nat) (f : Cwy → Cwy) : (s.modCwy c f).bays = s.bays := rfl
@[simp] theorem State.modCwy_girders (s : State) (c : Nat) (f : Cwy → Cwy) : (s.modCwy c f).girders = s.girders := rfl
@[simp] theorem State.modCwy_ras (s : State) (c : Nat) (f : Cwy → Cwy) : (s.modCwy c f).ras = s.ras := rfl
@[simp] theorem State.modCwy_vref (s : State) (c : Nat) (f : Cwy → Cwy) : (s.modCwy c f).vref = s.vref := rfl
@[simp] theorem State.modCwy_baseHist (s : State) (c : Nat) (f : Cwy → Cwy) : (s.modCwy c f).baseHist = s.baseHist := rfl
@[simp] theorem State.modCwy_refreshFail (s : State) (c : Nat) (f : Cwy → Cwy) : (s.modCwy c f).refreshFail = s.refreshFail := rfl
@[simp] theorem State.modCwy_refreshRetry (s : State) (c : Nat) (f : Cwy → Cwy) : (s.modCwy c f).refreshRetry = s.refreshRetry := rfl
@[simp] theorem State.modCwy_hbmFixed (s : State) (c : Nat) (f : Cwy → Cwy) : (s.modCwy c f).hbmFixed = s.hbmFixed := rfl
@[simp] theorem State.modCwy_refreshAt (s : State) (c : Nat) (f : Cwy → Cwy) : (s.modCwy c f).refreshAt = s.refreshAt := rfl
@[simp] theorem State.modCwy_taint (s : State) (c : Nat) (f : Cwy → Cwy) : (s.modCwy c f).taint = s.taint := rfl
@[simp] theorem State.modCwy_ports (s : State) (c : Nat) (f : Cwy → Cwy) : (s.modCwy c f).ports = s.ports := rfl
@[simp] theorem State.modCwy_tenants (s : State) (c : Nat) (f : Cwy → Cwy) : (s.modCwy c f).tenants = s.tenants := rfl
@[simp] theorem State.modCwy_spandrels (s : State) (c : Nat) (f : Cwy → Cwy) : (s.modCwy c f).spandrels = s.spandrels := rfl
@[simp] theorem State.modCwy_reqs (s : State) (c : Nat) (f : Cwy → Cwy) : (s.modCwy c f).reqs = s.reqs := rfl
@[simp] theorem State.modCwy_nOrders (s : State) (c : Nat) (f : Cwy → Cwy) : (s.modCwy c f).nOrders = s.nOrders := rfl
@[simp] theorem State.modCwy_certs (s : State) (c : Nat) (f : Cwy → Cwy) : (s.modCwy c f).certs = s.certs := rfl
@[simp] theorem State.modCwy_draws (s : State) (c : Nat) (f : Cwy → Cwy) : (s.modCwy c f).draws = s.draws := rfl
@[simp] theorem State.modCwy_hbm (s : State) (c : Nat) (f : Cwy → Cwy) : (s.modCwy c f).hbm = s.hbm := rfl
@[simp] theorem State.modCwy_deck (s : State) (c : Nat) (f : Cwy → Cwy) : (s.modCwy c f).deck = s.deck := rfl
@[simp] theorem State.modCwy_sram (s : State) (c : Nat) (f : Cwy → Cwy) : (s.modCwy c f).sram = s.sram := rfl
@[simp] theorem State.modCwy_pending (s : State) (c : Nat) (f : Cwy → Cwy) : (s.modCwy c f).pending = s.pending := rfl
@[simp] theorem State.modCwy_out (s : State) (c : Nat) (f : Cwy → Cwy) : (s.modCwy c f).out = s.out := rfl

/-! ### modLife -/

@[simp] theorem State.modLife_pw (s : State) (c : Nat) (f : Life → Life) : (s.modLife c f).pw = s.pw := rfl
@[simp] theorem State.modLife_en (s : State) (c : Nat) (f : Life → Life) : (s.modLife c f).en = s.en := rfl
@[simp] theorem State.modLife_thm (s : State) (c : Nat) (f : Life → Life) : (s.modLife c f).thm = s.thm := rfl
@[simp] theorem State.modLife_words (s : State) (c : Nat) (f : Life → Life) : (s.modLife c f).words = s.words := rfl
@[simp] theorem State.modLife_host (s : State) (c : Nat) (f : Life → Life) : (s.modLife c f).host = s.host := rfl
@[simp] theorem State.modLife_mgt (s : State) (c : Nat) (f : Life → Life) : (s.modLife c f).mgt = s.mgt := rfl
@[simp] theorem State.modLife_chain (s : State) (c : Nat) (f : Life → Life) : (s.modLife c f).chain = s.chain := rfl
@[simp] theorem State.modLife_nv (s : State) (c : Nat) (f : Life → Life) : (s.modLife c f).nv = s.nv := rfl
@[simp] theorem State.modLife_ledger (s : State) (c : Nat) (f : Life → Life) : (s.modLife c f).ledger = s.ledger := rfl
@[simp] theorem State.modLife_bays (s : State) (c : Nat) (f : Life → Life) : (s.modLife c f).bays = s.bays := rfl
@[simp] theorem State.modLife_girders (s : State) (c : Nat) (f : Life → Life) : (s.modLife c f).girders = s.girders := rfl
@[simp] theorem State.modLife_ras (s : State) (c : Nat) (f : Life → Life) : (s.modLife c f).ras = s.ras := rfl
@[simp] theorem State.modLife_vref (s : State) (c : Nat) (f : Life → Life) : (s.modLife c f).vref = s.vref := rfl
@[simp] theorem State.modLife_baseHist (s : State) (c : Nat) (f : Life → Life) : (s.modLife c f).baseHist = s.baseHist := rfl
@[simp] theorem State.modLife_refreshFail (s : State) (c : Nat) (f : Life → Life) : (s.modLife c f).refreshFail = s.refreshFail := rfl
@[simp] theorem State.modLife_refreshRetry (s : State) (c : Nat) (f : Life → Life) : (s.modLife c f).refreshRetry = s.refreshRetry := rfl
@[simp] theorem State.modLife_hbmFixed (s : State) (c : Nat) (f : Life → Life) : (s.modLife c f).hbmFixed = s.hbmFixed := rfl
@[simp] theorem State.modLife_refreshAt (s : State) (c : Nat) (f : Life → Life) : (s.modLife c f).refreshAt = s.refreshAt := rfl
@[simp] theorem State.modLife_taint (s : State) (c : Nat) (f : Life → Life) : (s.modLife c f).taint = s.taint := rfl
@[simp] theorem State.modLife_ports (s : State) (c : Nat) (f : Life → Life) : (s.modLife c f).ports = s.ports := rfl
@[simp] theorem State.modLife_tenants (s : State) (c : Nat) (f : Life → Life) : (s.modLife c f).tenants = s.tenants := rfl
@[simp] theorem State.modLife_spandrels (s : State) (c : Nat) (f : Life → Life) : (s.modLife c f).spandrels = s.spandrels := rfl
@[simp] theorem State.modLife_reqs (s : State) (c : Nat) (f : Life → Life) : (s.modLife c f).reqs = s.reqs := rfl
@[simp] theorem State.modLife_nOrders (s : State) (c : Nat) (f : Life → Life) : (s.modLife c f).nOrders = s.nOrders := rfl
@[simp] theorem State.modLife_certs (s : State) (c : Nat) (f : Life → Life) : (s.modLife c f).certs = s.certs := rfl
@[simp] theorem State.modLife_draws (s : State) (c : Nat) (f : Life → Life) : (s.modLife c f).draws = s.draws := rfl
@[simp] theorem State.modLife_hbm (s : State) (c : Nat) (f : Life → Life) : (s.modLife c f).hbm = s.hbm := rfl
@[simp] theorem State.modLife_deck (s : State) (c : Nat) (f : Life → Life) : (s.modLife c f).deck = s.deck := rfl
@[simp] theorem State.modLife_sram (s : State) (c : Nat) (f : Life → Life) : (s.modLife c f).sram = s.sram := rfl
@[simp] theorem State.modLife_pending (s : State) (c : Nat) (f : Life → Life) : (s.modLife c f).pending = s.pending := rfl
@[simp] theorem State.modLife_out (s : State) (c : Nat) (f : Life → Life) : (s.modLife c f).out = s.out := rfl

/-! ### modRun -/

@[simp] theorem State.modRun_pw (s : State) (c : Nat) (f : Run → Run) : (s.modRun c f).pw = s.pw := rfl
@[simp] theorem State.modRun_en (s : State) (c : Nat) (f : Run → Run) : (s.modRun c f).en = s.en := rfl
@[simp] theorem State.modRun_thm (s : State) (c : Nat) (f : Run → Run) : (s.modRun c f).thm = s.thm := rfl
@[simp] theorem State.modRun_words (s : State) (c : Nat) (f : Run → Run) : (s.modRun c f).words = s.words := rfl
@[simp] theorem State.modRun_host (s : State) (c : Nat) (f : Run → Run) : (s.modRun c f).host = s.host := rfl
@[simp] theorem State.modRun_mgt (s : State) (c : Nat) (f : Run → Run) : (s.modRun c f).mgt = s.mgt := rfl
@[simp] theorem State.modRun_chain (s : State) (c : Nat) (f : Run → Run) : (s.modRun c f).chain = s.chain := rfl
@[simp] theorem State.modRun_nv (s : State) (c : Nat) (f : Run → Run) : (s.modRun c f).nv = s.nv := rfl
@[simp] theorem State.modRun_ledger (s : State) (c : Nat) (f : Run → Run) : (s.modRun c f).ledger = s.ledger := rfl
@[simp] theorem State.modRun_bays (s : State) (c : Nat) (f : Run → Run) : (s.modRun c f).bays = s.bays := rfl
@[simp] theorem State.modRun_girders (s : State) (c : Nat) (f : Run → Run) : (s.modRun c f).girders = s.girders := rfl
@[simp] theorem State.modRun_ras (s : State) (c : Nat) (f : Run → Run) : (s.modRun c f).ras = s.ras := rfl
@[simp] theorem State.modRun_vref (s : State) (c : Nat) (f : Run → Run) : (s.modRun c f).vref = s.vref := rfl
@[simp] theorem State.modRun_baseHist (s : State) (c : Nat) (f : Run → Run) : (s.modRun c f).baseHist = s.baseHist := rfl
@[simp] theorem State.modRun_refreshFail (s : State) (c : Nat) (f : Run → Run) : (s.modRun c f).refreshFail = s.refreshFail := rfl
@[simp] theorem State.modRun_refreshRetry (s : State) (c : Nat) (f : Run → Run) : (s.modRun c f).refreshRetry = s.refreshRetry := rfl
@[simp] theorem State.modRun_hbmFixed (s : State) (c : Nat) (f : Run → Run) : (s.modRun c f).hbmFixed = s.hbmFixed := rfl
@[simp] theorem State.modRun_refreshAt (s : State) (c : Nat) (f : Run → Run) : (s.modRun c f).refreshAt = s.refreshAt := rfl
@[simp] theorem State.modRun_taint (s : State) (c : Nat) (f : Run → Run) : (s.modRun c f).taint = s.taint := rfl
@[simp] theorem State.modRun_ports (s : State) (c : Nat) (f : Run → Run) : (s.modRun c f).ports = s.ports := rfl
@[simp] theorem State.modRun_tenants (s : State) (c : Nat) (f : Run → Run) : (s.modRun c f).tenants = s.tenants := rfl
@[simp] theorem State.modRun_spandrels (s : State) (c : Nat) (f : Run → Run) : (s.modRun c f).spandrels = s.spandrels := rfl
@[simp] theorem State.modRun_reqs (s : State) (c : Nat) (f : Run → Run) : (s.modRun c f).reqs = s.reqs := rfl
@[simp] theorem State.modRun_nOrders (s : State) (c : Nat) (f : Run → Run) : (s.modRun c f).nOrders = s.nOrders := rfl
@[simp] theorem State.modRun_certs (s : State) (c : Nat) (f : Run → Run) : (s.modRun c f).certs = s.certs := rfl
@[simp] theorem State.modRun_draws (s : State) (c : Nat) (f : Run → Run) : (s.modRun c f).draws = s.draws := rfl
@[simp] theorem State.modRun_hbm (s : State) (c : Nat) (f : Run → Run) : (s.modRun c f).hbm = s.hbm := rfl
@[simp] theorem State.modRun_deck (s : State) (c : Nat) (f : Run → Run) : (s.modRun c f).deck = s.deck := rfl
@[simp] theorem State.modRun_sram (s : State) (c : Nat) (f : Run → Run) : (s.modRun c f).sram = s.sram := rfl
@[simp] theorem State.modRun_pending (s : State) (c : Nat) (f : Run → Run) : (s.modRun c f).pending = s.pending := rfl
@[simp] theorem State.modRun_out (s : State) (c : Nat) (f : Run → Run) : (s.modRun c f).out = s.out := rfl

/-! ### modKey -/

@[simp] theorem State.modKey_pw (s : State) (c : Nat) (f : Key → Key) : (s.modKey c f).pw = s.pw := rfl
@[simp] theorem State.modKey_en (s : State) (c : Nat) (f : Key → Key) : (s.modKey c f).en = s.en := rfl
@[simp] theorem State.modKey_thm (s : State) (c : Nat) (f : Key → Key) : (s.modKey c f).thm = s.thm := rfl
@[simp] theorem State.modKey_words (s : State) (c : Nat) (f : Key → Key) : (s.modKey c f).words = s.words := rfl
@[simp] theorem State.modKey_host (s : State) (c : Nat) (f : Key → Key) : (s.modKey c f).host = s.host := rfl
@[simp] theorem State.modKey_mgt (s : State) (c : Nat) (f : Key → Key) : (s.modKey c f).mgt = s.mgt := rfl
@[simp] theorem State.modKey_chain (s : State) (c : Nat) (f : Key → Key) : (s.modKey c f).chain = s.chain := rfl
@[simp] theorem State.modKey_nv (s : State) (c : Nat) (f : Key → Key) : (s.modKey c f).nv = s.nv := rfl
@[simp] theorem State.modKey_ledger (s : State) (c : Nat) (f : Key → Key) : (s.modKey c f).ledger = s.ledger := rfl
@[simp] theorem State.modKey_bays (s : State) (c : Nat) (f : Key → Key) : (s.modKey c f).bays = s.bays := rfl
@[simp] theorem State.modKey_girders (s : State) (c : Nat) (f : Key → Key) : (s.modKey c f).girders = s.girders := rfl
@[simp] theorem State.modKey_ras (s : State) (c : Nat) (f : Key → Key) : (s.modKey c f).ras = s.ras := rfl
@[simp] theorem State.modKey_vref (s : State) (c : Nat) (f : Key → Key) : (s.modKey c f).vref = s.vref := rfl
@[simp] theorem State.modKey_baseHist (s : State) (c : Nat) (f : Key → Key) : (s.modKey c f).baseHist = s.baseHist := rfl
@[simp] theorem State.modKey_refreshFail (s : State) (c : Nat) (f : Key → Key) : (s.modKey c f).refreshFail = s.refreshFail := rfl
@[simp] theorem State.modKey_refreshRetry (s : State) (c : Nat) (f : Key → Key) : (s.modKey c f).refreshRetry = s.refreshRetry := rfl
@[simp] theorem State.modKey_hbmFixed (s : State) (c : Nat) (f : Key → Key) : (s.modKey c f).hbmFixed = s.hbmFixed := rfl
@[simp] theorem State.modKey_refreshAt (s : State) (c : Nat) (f : Key → Key) : (s.modKey c f).refreshAt = s.refreshAt := rfl
@[simp] theorem State.modKey_taint (s : State) (c : Nat) (f : Key → Key) : (s.modKey c f).taint = s.taint := rfl
@[simp] theorem State.modKey_ports (s : State) (c : Nat) (f : Key → Key) : (s.modKey c f).ports = s.ports := rfl
@[simp] theorem State.modKey_tenants (s : State) (c : Nat) (f : Key → Key) : (s.modKey c f).tenants = s.tenants := rfl
@[simp] theorem State.modKey_spandrels (s : State) (c : Nat) (f : Key → Key) : (s.modKey c f).spandrels = s.spandrels := rfl
@[simp] theorem State.modKey_reqs (s : State) (c : Nat) (f : Key → Key) : (s.modKey c f).reqs = s.reqs := rfl
@[simp] theorem State.modKey_nOrders (s : State) (c : Nat) (f : Key → Key) : (s.modKey c f).nOrders = s.nOrders := rfl
@[simp] theorem State.modKey_certs (s : State) (c : Nat) (f : Key → Key) : (s.modKey c f).certs = s.certs := rfl
@[simp] theorem State.modKey_draws (s : State) (c : Nat) (f : Key → Key) : (s.modKey c f).draws = s.draws := rfl
@[simp] theorem State.modKey_hbm (s : State) (c : Nat) (f : Key → Key) : (s.modKey c f).hbm = s.hbm := rfl
@[simp] theorem State.modKey_deck (s : State) (c : Nat) (f : Key → Key) : (s.modKey c f).deck = s.deck := rfl
@[simp] theorem State.modKey_sram (s : State) (c : Nat) (f : Key → Key) : (s.modKey c f).sram = s.sram := rfl
@[simp] theorem State.modKey_pending (s : State) (c : Nat) (f : Key → Key) : (s.modKey c f).pending = s.pending := rfl
@[simp] theorem State.modKey_out (s : State) (c : Nat) (f : Key → Key) : (s.modKey c f).out = s.out := rfl

/-! ### modKv -/

@[simp] theorem State.modKv_pw (s : State) (c : Nat) (f : Kv → Kv) : (s.modKv c f).pw = s.pw := rfl
@[simp] theorem State.modKv_en (s : State) (c : Nat) (f : Kv → Kv) : (s.modKv c f).en = s.en := rfl
@[simp] theorem State.modKv_thm (s : State) (c : Nat) (f : Kv → Kv) : (s.modKv c f).thm = s.thm := rfl
@[simp] theorem State.modKv_words (s : State) (c : Nat) (f : Kv → Kv) : (s.modKv c f).words = s.words := rfl
@[simp] theorem State.modKv_host (s : State) (c : Nat) (f : Kv → Kv) : (s.modKv c f).host = s.host := rfl
@[simp] theorem State.modKv_mgt (s : State) (c : Nat) (f : Kv → Kv) : (s.modKv c f).mgt = s.mgt := rfl
@[simp] theorem State.modKv_chain (s : State) (c : Nat) (f : Kv → Kv) : (s.modKv c f).chain = s.chain := rfl
@[simp] theorem State.modKv_nv (s : State) (c : Nat) (f : Kv → Kv) : (s.modKv c f).nv = s.nv := rfl
@[simp] theorem State.modKv_ledger (s : State) (c : Nat) (f : Kv → Kv) : (s.modKv c f).ledger = s.ledger := rfl
@[simp] theorem State.modKv_bays (s : State) (c : Nat) (f : Kv → Kv) : (s.modKv c f).bays = s.bays := rfl
@[simp] theorem State.modKv_girders (s : State) (c : Nat) (f : Kv → Kv) : (s.modKv c f).girders = s.girders := rfl
@[simp] theorem State.modKv_ras (s : State) (c : Nat) (f : Kv → Kv) : (s.modKv c f).ras = s.ras := rfl
@[simp] theorem State.modKv_vref (s : State) (c : Nat) (f : Kv → Kv) : (s.modKv c f).vref = s.vref := rfl
@[simp] theorem State.modKv_baseHist (s : State) (c : Nat) (f : Kv → Kv) : (s.modKv c f).baseHist = s.baseHist := rfl
@[simp] theorem State.modKv_refreshFail (s : State) (c : Nat) (f : Kv → Kv) : (s.modKv c f).refreshFail = s.refreshFail := rfl
@[simp] theorem State.modKv_refreshRetry (s : State) (c : Nat) (f : Kv → Kv) : (s.modKv c f).refreshRetry = s.refreshRetry := rfl
@[simp] theorem State.modKv_hbmFixed (s : State) (c : Nat) (f : Kv → Kv) : (s.modKv c f).hbmFixed = s.hbmFixed := rfl
@[simp] theorem State.modKv_refreshAt (s : State) (c : Nat) (f : Kv → Kv) : (s.modKv c f).refreshAt = s.refreshAt := rfl
@[simp] theorem State.modKv_taint (s : State) (c : Nat) (f : Kv → Kv) : (s.modKv c f).taint = s.taint := rfl
@[simp] theorem State.modKv_ports (s : State) (c : Nat) (f : Kv → Kv) : (s.modKv c f).ports = s.ports := rfl
@[simp] theorem State.modKv_tenants (s : State) (c : Nat) (f : Kv → Kv) : (s.modKv c f).tenants = s.tenants := rfl
@[simp] theorem State.modKv_spandrels (s : State) (c : Nat) (f : Kv → Kv) : (s.modKv c f).spandrels = s.spandrels := rfl
@[simp] theorem State.modKv_reqs (s : State) (c : Nat) (f : Kv → Kv) : (s.modKv c f).reqs = s.reqs := rfl
@[simp] theorem State.modKv_nOrders (s : State) (c : Nat) (f : Kv → Kv) : (s.modKv c f).nOrders = s.nOrders := rfl
@[simp] theorem State.modKv_certs (s : State) (c : Nat) (f : Kv → Kv) : (s.modKv c f).certs = s.certs := rfl
@[simp] theorem State.modKv_draws (s : State) (c : Nat) (f : Kv → Kv) : (s.modKv c f).draws = s.draws := rfl
@[simp] theorem State.modKv_hbm (s : State) (c : Nat) (f : Kv → Kv) : (s.modKv c f).hbm = s.hbm := rfl
@[simp] theorem State.modKv_deck (s : State) (c : Nat) (f : Kv → Kv) : (s.modKv c f).deck = s.deck := rfl
@[simp] theorem State.modKv_sram (s : State) (c : Nat) (f : Kv → Kv) : (s.modKv c f).sram = s.sram := rfl
@[simp] theorem State.modKv_pending (s : State) (c : Nat) (f : Kv → Kv) : (s.modKv c f).pending = s.pending := rfl
@[simp] theorem State.modKv_out (s : State) (c : Nat) (f : Kv → Kv) : (s.modKv c f).out = s.out := rfl

/-! ### modW -/

@[simp] theorem State.modW_pw (s : State) (c : Nat) (f : Weights → Weights) : (s.modW c f).pw = s.pw := rfl
@[simp] theorem State.modW_en (s : State) (c : Nat) (f : Weights → Weights) : (s.modW c f).en = s.en := rfl
@[simp] theorem State.modW_thm (s : State) (c : Nat) (f : Weights → Weights) : (s.modW c f).thm = s.thm := rfl
@[simp] theorem State.modW_words (s : State) (c : Nat) (f : Weights → Weights) : (s.modW c f).words = s.words := rfl
@[simp] theorem State.modW_host (s : State) (c : Nat) (f : Weights → Weights) : (s.modW c f).host = s.host := rfl
@[simp] theorem State.modW_mgt (s : State) (c : Nat) (f : Weights → Weights) : (s.modW c f).mgt = s.mgt := rfl
@[simp] theorem State.modW_chain (s : State) (c : Nat) (f : Weights → Weights) : (s.modW c f).chain = s.chain := rfl
@[simp] theorem State.modW_nv (s : State) (c : Nat) (f : Weights → Weights) : (s.modW c f).nv = s.nv := rfl
@[simp] theorem State.modW_ledger (s : State) (c : Nat) (f : Weights → Weights) : (s.modW c f).ledger = s.ledger := rfl
@[simp] theorem State.modW_bays (s : State) (c : Nat) (f : Weights → Weights) : (s.modW c f).bays = s.bays := rfl
@[simp] theorem State.modW_girders (s : State) (c : Nat) (f : Weights → Weights) : (s.modW c f).girders = s.girders := rfl
@[simp] theorem State.modW_ras (s : State) (c : Nat) (f : Weights → Weights) : (s.modW c f).ras = s.ras := rfl
@[simp] theorem State.modW_vref (s : State) (c : Nat) (f : Weights → Weights) : (s.modW c f).vref = s.vref := rfl
@[simp] theorem State.modW_baseHist (s : State) (c : Nat) (f : Weights → Weights) : (s.modW c f).baseHist = s.baseHist := rfl
@[simp] theorem State.modW_refreshFail (s : State) (c : Nat) (f : Weights → Weights) : (s.modW c f).refreshFail = s.refreshFail := rfl
@[simp] theorem State.modW_refreshRetry (s : State) (c : Nat) (f : Weights → Weights) : (s.modW c f).refreshRetry = s.refreshRetry := rfl
@[simp] theorem State.modW_hbmFixed (s : State) (c : Nat) (f : Weights → Weights) : (s.modW c f).hbmFixed = s.hbmFixed := rfl
@[simp] theorem State.modW_refreshAt (s : State) (c : Nat) (f : Weights → Weights) : (s.modW c f).refreshAt = s.refreshAt := rfl
@[simp] theorem State.modW_taint (s : State) (c : Nat) (f : Weights → Weights) : (s.modW c f).taint = s.taint := rfl
@[simp] theorem State.modW_ports (s : State) (c : Nat) (f : Weights → Weights) : (s.modW c f).ports = s.ports := rfl
@[simp] theorem State.modW_tenants (s : State) (c : Nat) (f : Weights → Weights) : (s.modW c f).tenants = s.tenants := rfl
@[simp] theorem State.modW_spandrels (s : State) (c : Nat) (f : Weights → Weights) : (s.modW c f).spandrels = s.spandrels := rfl
@[simp] theorem State.modW_reqs (s : State) (c : Nat) (f : Weights → Weights) : (s.modW c f).reqs = s.reqs := rfl
@[simp] theorem State.modW_nOrders (s : State) (c : Nat) (f : Weights → Weights) : (s.modW c f).nOrders = s.nOrders := rfl
@[simp] theorem State.modW_certs (s : State) (c : Nat) (f : Weights → Weights) : (s.modW c f).certs = s.certs := rfl
@[simp] theorem State.modW_draws (s : State) (c : Nat) (f : Weights → Weights) : (s.modW c f).draws = s.draws := rfl
@[simp] theorem State.modW_hbm (s : State) (c : Nat) (f : Weights → Weights) : (s.modW c f).hbm = s.hbm := rfl
@[simp] theorem State.modW_deck (s : State) (c : Nat) (f : Weights → Weights) : (s.modW c f).deck = s.deck := rfl
@[simp] theorem State.modW_sram (s : State) (c : Nat) (f : Weights → Weights) : (s.modW c f).sram = s.sram := rfl
@[simp] theorem State.modW_pending (s : State) (c : Nat) (f : Weights → Weights) : (s.modW c f).pending = s.pending := rfl
@[simp] theorem State.modW_out (s : State) (c : Nat) (f : Weights → Weights) : (s.modW c f).out = s.out := rfl

/-! ### modJk -/

@[simp] theorem State.modJk_pw (s : State) (c : Nat) (f : JobKey → JobKey) : (s.modJk c f).pw = s.pw := rfl
@[simp] theorem State.modJk_en (s : State) (c : Nat) (f : JobKey → JobKey) : (s.modJk c f).en = s.en := rfl
@[simp] theorem State.modJk_thm (s : State) (c : Nat) (f : JobKey → JobKey) : (s.modJk c f).thm = s.thm := rfl
@[simp] theorem State.modJk_words (s : State) (c : Nat) (f : JobKey → JobKey) : (s.modJk c f).words = s.words := rfl
@[simp] theorem State.modJk_host (s : State) (c : Nat) (f : JobKey → JobKey) : (s.modJk c f).host = s.host := rfl
@[simp] theorem State.modJk_mgt (s : State) (c : Nat) (f : JobKey → JobKey) : (s.modJk c f).mgt = s.mgt := rfl
@[simp] theorem State.modJk_chain (s : State) (c : Nat) (f : JobKey → JobKey) : (s.modJk c f).chain = s.chain := rfl
@[simp] theorem State.modJk_nv (s : State) (c : Nat) (f : JobKey → JobKey) : (s.modJk c f).nv = s.nv := rfl
@[simp] theorem State.modJk_ledger (s : State) (c : Nat) (f : JobKey → JobKey) : (s.modJk c f).ledger = s.ledger := rfl
@[simp] theorem State.modJk_bays (s : State) (c : Nat) (f : JobKey → JobKey) : (s.modJk c f).bays = s.bays := rfl
@[simp] theorem State.modJk_girders (s : State) (c : Nat) (f : JobKey → JobKey) : (s.modJk c f).girders = s.girders := rfl
@[simp] theorem State.modJk_ras (s : State) (c : Nat) (f : JobKey → JobKey) : (s.modJk c f).ras = s.ras := rfl
@[simp] theorem State.modJk_vref (s : State) (c : Nat) (f : JobKey → JobKey) : (s.modJk c f).vref = s.vref := rfl
@[simp] theorem State.modJk_baseHist (s : State) (c : Nat) (f : JobKey → JobKey) : (s.modJk c f).baseHist = s.baseHist := rfl
@[simp] theorem State.modJk_refreshFail (s : State) (c : Nat) (f : JobKey → JobKey) : (s.modJk c f).refreshFail = s.refreshFail := rfl
@[simp] theorem State.modJk_refreshRetry (s : State) (c : Nat) (f : JobKey → JobKey) : (s.modJk c f).refreshRetry = s.refreshRetry := rfl
@[simp] theorem State.modJk_hbmFixed (s : State) (c : Nat) (f : JobKey → JobKey) : (s.modJk c f).hbmFixed = s.hbmFixed := rfl
@[simp] theorem State.modJk_refreshAt (s : State) (c : Nat) (f : JobKey → JobKey) : (s.modJk c f).refreshAt = s.refreshAt := rfl
@[simp] theorem State.modJk_taint (s : State) (c : Nat) (f : JobKey → JobKey) : (s.modJk c f).taint = s.taint := rfl
@[simp] theorem State.modJk_ports (s : State) (c : Nat) (f : JobKey → JobKey) : (s.modJk c f).ports = s.ports := rfl
@[simp] theorem State.modJk_tenants (s : State) (c : Nat) (f : JobKey → JobKey) : (s.modJk c f).tenants = s.tenants := rfl
@[simp] theorem State.modJk_spandrels (s : State) (c : Nat) (f : JobKey → JobKey) : (s.modJk c f).spandrels = s.spandrels := rfl
@[simp] theorem State.modJk_reqs (s : State) (c : Nat) (f : JobKey → JobKey) : (s.modJk c f).reqs = s.reqs := rfl
@[simp] theorem State.modJk_nOrders (s : State) (c : Nat) (f : JobKey → JobKey) : (s.modJk c f).nOrders = s.nOrders := rfl
@[simp] theorem State.modJk_certs (s : State) (c : Nat) (f : JobKey → JobKey) : (s.modJk c f).certs = s.certs := rfl
@[simp] theorem State.modJk_draws (s : State) (c : Nat) (f : JobKey → JobKey) : (s.modJk c f).draws = s.draws := rfl
@[simp] theorem State.modJk_hbm (s : State) (c : Nat) (f : JobKey → JobKey) : (s.modJk c f).hbm = s.hbm := rfl
@[simp] theorem State.modJk_deck (s : State) (c : Nat) (f : JobKey → JobKey) : (s.modJk c f).deck = s.deck := rfl
@[simp] theorem State.modJk_sram (s : State) (c : Nat) (f : JobKey → JobKey) : (s.modJk c f).sram = s.sram := rfl
@[simp] theorem State.modJk_pending (s : State) (c : Nat) (f : JobKey → JobKey) : (s.modJk c f).pending = s.pending := rfl
@[simp] theorem State.modJk_out (s : State) (c : Nat) (f : JobKey → JobKey) : (s.modJk c f).out = s.out := rfl

/-! ### modBay -/

@[simp] theorem State.modBay_pw (s : State) (b : Nat) (f : Bay → Bay) : (s.modBay b f).pw = s.pw := rfl
@[simp] theorem State.modBay_en (s : State) (b : Nat) (f : Bay → Bay) : (s.modBay b f).en = s.en := rfl
@[simp] theorem State.modBay_thm (s : State) (b : Nat) (f : Bay → Bay) : (s.modBay b f).thm = s.thm := rfl
@[simp] theorem State.modBay_words (s : State) (b : Nat) (f : Bay → Bay) : (s.modBay b f).words = s.words := rfl
@[simp] theorem State.modBay_host (s : State) (b : Nat) (f : Bay → Bay) : (s.modBay b f).host = s.host := rfl
@[simp] theorem State.modBay_mgt (s : State) (b : Nat) (f : Bay → Bay) : (s.modBay b f).mgt = s.mgt := rfl
@[simp] theorem State.modBay_chain (s : State) (b : Nat) (f : Bay → Bay) : (s.modBay b f).chain = s.chain := rfl
@[simp] theorem State.modBay_nv (s : State) (b : Nat) (f : Bay → Bay) : (s.modBay b f).nv = s.nv := rfl
@[simp] theorem State.modBay_ledger (s : State) (b : Nat) (f : Bay → Bay) : (s.modBay b f).ledger = s.ledger := rfl
@[simp] theorem State.modBay_girders (s : State) (b : Nat) (f : Bay → Bay) : (s.modBay b f).girders = s.girders := rfl
@[simp] theorem State.modBay_ras (s : State) (b : Nat) (f : Bay → Bay) : (s.modBay b f).ras = s.ras := rfl
@[simp] theorem State.modBay_vref (s : State) (b : Nat) (f : Bay → Bay) : (s.modBay b f).vref = s.vref := rfl
@[simp] theorem State.modBay_baseHist (s : State) (b : Nat) (f : Bay → Bay) : (s.modBay b f).baseHist = s.baseHist := rfl
@[simp] theorem State.modBay_refreshFail (s : State) (b : Nat) (f : Bay → Bay) : (s.modBay b f).refreshFail = s.refreshFail := rfl
@[simp] theorem State.modBay_refreshRetry (s : State) (b : Nat) (f : Bay → Bay) : (s.modBay b f).refreshRetry = s.refreshRetry := rfl
@[simp] theorem State.modBay_hbmFixed (s : State) (b : Nat) (f : Bay → Bay) : (s.modBay b f).hbmFixed = s.hbmFixed := rfl
@[simp] theorem State.modBay_refreshAt (s : State) (b : Nat) (f : Bay → Bay) : (s.modBay b f).refreshAt = s.refreshAt := rfl
@[simp] theorem State.modBay_taint (s : State) (b : Nat) (f : Bay → Bay) : (s.modBay b f).taint = s.taint := rfl
@[simp] theorem State.modBay_ports (s : State) (b : Nat) (f : Bay → Bay) : (s.modBay b f).ports = s.ports := rfl
@[simp] theorem State.modBay_tenants (s : State) (b : Nat) (f : Bay → Bay) : (s.modBay b f).tenants = s.tenants := rfl
@[simp] theorem State.modBay_spandrels (s : State) (b : Nat) (f : Bay → Bay) : (s.modBay b f).spandrels = s.spandrels := rfl
@[simp] theorem State.modBay_cwys (s : State) (b : Nat) (f : Bay → Bay) : (s.modBay b f).cwys = s.cwys := rfl
@[simp] theorem State.modBay_reqs (s : State) (b : Nat) (f : Bay → Bay) : (s.modBay b f).reqs = s.reqs := rfl
@[simp] theorem State.modBay_nOrders (s : State) (b : Nat) (f : Bay → Bay) : (s.modBay b f).nOrders = s.nOrders := rfl
@[simp] theorem State.modBay_certs (s : State) (b : Nat) (f : Bay → Bay) : (s.modBay b f).certs = s.certs := rfl
@[simp] theorem State.modBay_draws (s : State) (b : Nat) (f : Bay → Bay) : (s.modBay b f).draws = s.draws := rfl
@[simp] theorem State.modBay_hbm (s : State) (b : Nat) (f : Bay → Bay) : (s.modBay b f).hbm = s.hbm := rfl
@[simp] theorem State.modBay_deck (s : State) (b : Nat) (f : Bay → Bay) : (s.modBay b f).deck = s.deck := rfl
@[simp] theorem State.modBay_sram (s : State) (b : Nat) (f : Bay → Bay) : (s.modBay b f).sram = s.sram := rfl
@[simp] theorem State.modBay_pending (s : State) (b : Nat) (f : Bay → Bay) : (s.modBay b f).pending = s.pending := rfl
@[simp] theorem State.modBay_out (s : State) (b : Nat) (f : Bay → Bay) : (s.modBay b f).out = s.out := rfl

/-! ### modPier -/

@[simp] theorem State.modPier_pw (s : State) (b p : Nat) (f : Pier → Pier) : (s.modPier b p f).pw = s.pw := rfl
@[simp] theorem State.modPier_en (s : State) (b p : Nat) (f : Pier → Pier) : (s.modPier b p f).en = s.en := rfl
@[simp] theorem State.modPier_thm (s : State) (b p : Nat) (f : Pier → Pier) : (s.modPier b p f).thm = s.thm := rfl
@[simp] theorem State.modPier_words (s : State) (b p : Nat) (f : Pier → Pier) : (s.modPier b p f).words = s.words := rfl
@[simp] theorem State.modPier_host (s : State) (b p : Nat) (f : Pier → Pier) : (s.modPier b p f).host = s.host := rfl
@[simp] theorem State.modPier_mgt (s : State) (b p : Nat) (f : Pier → Pier) : (s.modPier b p f).mgt = s.mgt := rfl
@[simp] theorem State.modPier_chain (s : State) (b p : Nat) (f : Pier → Pier) : (s.modPier b p f).chain = s.chain := rfl
@[simp] theorem State.modPier_nv (s : State) (b p : Nat) (f : Pier → Pier) : (s.modPier b p f).nv = s.nv := rfl
@[simp] theorem State.modPier_ledger (s : State) (b p : Nat) (f : Pier → Pier) : (s.modPier b p f).ledger = s.ledger := rfl
@[simp] theorem State.modPier_girders (s : State) (b p : Nat) (f : Pier → Pier) : (s.modPier b p f).girders = s.girders := rfl
@[simp] theorem State.modPier_ras (s : State) (b p : Nat) (f : Pier → Pier) : (s.modPier b p f).ras = s.ras := rfl
@[simp] theorem State.modPier_vref (s : State) (b p : Nat) (f : Pier → Pier) : (s.modPier b p f).vref = s.vref := rfl
@[simp] theorem State.modPier_baseHist (s : State) (b p : Nat) (f : Pier → Pier) : (s.modPier b p f).baseHist = s.baseHist := rfl
@[simp] theorem State.modPier_refreshFail (s : State) (b p : Nat) (f : Pier → Pier) : (s.modPier b p f).refreshFail = s.refreshFail := rfl
@[simp] theorem State.modPier_refreshRetry (s : State) (b p : Nat) (f : Pier → Pier) : (s.modPier b p f).refreshRetry = s.refreshRetry := rfl
@[simp] theorem State.modPier_hbmFixed (s : State) (b p : Nat) (f : Pier → Pier) : (s.modPier b p f).hbmFixed = s.hbmFixed := rfl
@[simp] theorem State.modPier_refreshAt (s : State) (b p : Nat) (f : Pier → Pier) : (s.modPier b p f).refreshAt = s.refreshAt := rfl
@[simp] theorem State.modPier_taint (s : State) (b p : Nat) (f : Pier → Pier) : (s.modPier b p f).taint = s.taint := rfl
@[simp] theorem State.modPier_ports (s : State) (b p : Nat) (f : Pier → Pier) : (s.modPier b p f).ports = s.ports := rfl
@[simp] theorem State.modPier_tenants (s : State) (b p : Nat) (f : Pier → Pier) : (s.modPier b p f).tenants = s.tenants := rfl
@[simp] theorem State.modPier_spandrels (s : State) (b p : Nat) (f : Pier → Pier) : (s.modPier b p f).spandrels = s.spandrels := rfl
@[simp] theorem State.modPier_cwys (s : State) (b p : Nat) (f : Pier → Pier) : (s.modPier b p f).cwys = s.cwys := rfl
@[simp] theorem State.modPier_reqs (s : State) (b p : Nat) (f : Pier → Pier) : (s.modPier b p f).reqs = s.reqs := rfl
@[simp] theorem State.modPier_nOrders (s : State) (b p : Nat) (f : Pier → Pier) : (s.modPier b p f).nOrders = s.nOrders := rfl
@[simp] theorem State.modPier_certs (s : State) (b p : Nat) (f : Pier → Pier) : (s.modPier b p f).certs = s.certs := rfl
@[simp] theorem State.modPier_draws (s : State) (b p : Nat) (f : Pier → Pier) : (s.modPier b p f).draws = s.draws := rfl
@[simp] theorem State.modPier_hbm (s : State) (b p : Nat) (f : Pier → Pier) : (s.modPier b p f).hbm = s.hbm := rfl
@[simp] theorem State.modPier_deck (s : State) (b p : Nat) (f : Pier → Pier) : (s.modPier b p f).deck = s.deck := rfl
@[simp] theorem State.modPier_sram (s : State) (b p : Nat) (f : Pier → Pier) : (s.modPier b p f).sram = s.sram := rfl
@[simp] theorem State.modPier_pending (s : State) (b p : Nat) (f : Pier → Pier) : (s.modPier b p f).pending = s.pending := rfl
@[simp] theorem State.modPier_out (s : State) (b p : Nat) (f : Pier → Pier) : (s.modPier b p f).out = s.out := rfl

/-! ### modGirder -/

@[simp] theorem State.modGirder_pw (s : State) (g : Nat) (f : Girder → Girder) : (s.modGirder g f).pw = s.pw := rfl
@[simp] theorem State.modGirder_en (s : State) (g : Nat) (f : Girder → Girder) : (s.modGirder g f).en = s.en := rfl
@[simp] theorem State.modGirder_thm (s : State) (g : Nat) (f : Girder → Girder) : (s.modGirder g f).thm = s.thm := rfl
@[simp] theorem State.modGirder_words (s : State) (g : Nat) (f : Girder → Girder) : (s.modGirder g f).words = s.words := rfl
@[simp] theorem State.modGirder_host (s : State) (g : Nat) (f : Girder → Girder) : (s.modGirder g f).host = s.host := rfl
@[simp] theorem State.modGirder_mgt (s : State) (g : Nat) (f : Girder → Girder) : (s.modGirder g f).mgt = s.mgt := rfl
@[simp] theorem State.modGirder_chain (s : State) (g : Nat) (f : Girder → Girder) : (s.modGirder g f).chain = s.chain := rfl
@[simp] theorem State.modGirder_nv (s : State) (g : Nat) (f : Girder → Girder) : (s.modGirder g f).nv = s.nv := rfl
@[simp] theorem State.modGirder_ledger (s : State) (g : Nat) (f : Girder → Girder) : (s.modGirder g f).ledger = s.ledger := rfl
@[simp] theorem State.modGirder_bays (s : State) (g : Nat) (f : Girder → Girder) : (s.modGirder g f).bays = s.bays := rfl
@[simp] theorem State.modGirder_ras (s : State) (g : Nat) (f : Girder → Girder) : (s.modGirder g f).ras = s.ras := rfl
@[simp] theorem State.modGirder_vref (s : State) (g : Nat) (f : Girder → Girder) : (s.modGirder g f).vref = s.vref := rfl
@[simp] theorem State.modGirder_baseHist (s : State) (g : Nat) (f : Girder → Girder) : (s.modGirder g f).baseHist = s.baseHist := rfl
@[simp] theorem State.modGirder_refreshFail (s : State) (g : Nat) (f : Girder → Girder) : (s.modGirder g f).refreshFail = s.refreshFail := rfl
@[simp] theorem State.modGirder_refreshRetry (s : State) (g : Nat) (f : Girder → Girder) : (s.modGirder g f).refreshRetry = s.refreshRetry := rfl
@[simp] theorem State.modGirder_hbmFixed (s : State) (g : Nat) (f : Girder → Girder) : (s.modGirder g f).hbmFixed = s.hbmFixed := rfl
@[simp] theorem State.modGirder_refreshAt (s : State) (g : Nat) (f : Girder → Girder) : (s.modGirder g f).refreshAt = s.refreshAt := rfl
@[simp] theorem State.modGirder_taint (s : State) (g : Nat) (f : Girder → Girder) : (s.modGirder g f).taint = s.taint := rfl
@[simp] theorem State.modGirder_ports (s : State) (g : Nat) (f : Girder → Girder) : (s.modGirder g f).ports = s.ports := rfl
@[simp] theorem State.modGirder_tenants (s : State) (g : Nat) (f : Girder → Girder) : (s.modGirder g f).tenants = s.tenants := rfl
@[simp] theorem State.modGirder_spandrels (s : State) (g : Nat) (f : Girder → Girder) : (s.modGirder g f).spandrels = s.spandrels := rfl
@[simp] theorem State.modGirder_cwys (s : State) (g : Nat) (f : Girder → Girder) : (s.modGirder g f).cwys = s.cwys := rfl
@[simp] theorem State.modGirder_reqs (s : State) (g : Nat) (f : Girder → Girder) : (s.modGirder g f).reqs = s.reqs := rfl
@[simp] theorem State.modGirder_nOrders (s : State) (g : Nat) (f : Girder → Girder) : (s.modGirder g f).nOrders = s.nOrders := rfl
@[simp] theorem State.modGirder_certs (s : State) (g : Nat) (f : Girder → Girder) : (s.modGirder g f).certs = s.certs := rfl
@[simp] theorem State.modGirder_draws (s : State) (g : Nat) (f : Girder → Girder) : (s.modGirder g f).draws = s.draws := rfl
@[simp] theorem State.modGirder_hbm (s : State) (g : Nat) (f : Girder → Girder) : (s.modGirder g f).hbm = s.hbm := rfl
@[simp] theorem State.modGirder_deck (s : State) (g : Nat) (f : Girder → Girder) : (s.modGirder g f).deck = s.deck := rfl
@[simp] theorem State.modGirder_sram (s : State) (g : Nat) (f : Girder → Girder) : (s.modGirder g f).sram = s.sram := rfl
@[simp] theorem State.modGirder_pending (s : State) (g : Nat) (f : Girder → Girder) : (s.modGirder g f).pending = s.pending := rfl
@[simp] theorem State.modGirder_out (s : State) (g : Nat) (f : Girder → Girder) : (s.modGirder g f).out = s.out := rfl

/-! ### modHost -/

@[simp] theorem State.modHost_pw (s : State) (f : HostIf → HostIf) : (s.modHost f).pw = s.pw := rfl
@[simp] theorem State.modHost_en (s : State) (f : HostIf → HostIf) : (s.modHost f).en = s.en := rfl
@[simp] theorem State.modHost_thm (s : State) (f : HostIf → HostIf) : (s.modHost f).thm = s.thm := rfl
@[simp] theorem State.modHost_words (s : State) (f : HostIf → HostIf) : (s.modHost f).words = s.words := rfl
@[simp] theorem State.modHost_host (s : State) (f : HostIf → HostIf) : (s.modHost f).host = f s.host := rfl
@[simp] theorem State.modHost_mgt (s : State) (f : HostIf → HostIf) : (s.modHost f).mgt = s.mgt := rfl
@[simp] theorem State.modHost_chain (s : State) (f : HostIf → HostIf) : (s.modHost f).chain = s.chain := rfl
@[simp] theorem State.modHost_nv (s : State) (f : HostIf → HostIf) : (s.modHost f).nv = s.nv := rfl
@[simp] theorem State.modHost_ledger (s : State) (f : HostIf → HostIf) : (s.modHost f).ledger = s.ledger := rfl
@[simp] theorem State.modHost_bays (s : State) (f : HostIf → HostIf) : (s.modHost f).bays = s.bays := rfl
@[simp] theorem State.modHost_girders (s : State) (f : HostIf → HostIf) : (s.modHost f).girders = s.girders := rfl
@[simp] theorem State.modHost_ras (s : State) (f : HostIf → HostIf) : (s.modHost f).ras = s.ras := rfl
@[simp] theorem State.modHost_vref (s : State) (f : HostIf → HostIf) : (s.modHost f).vref = s.vref := rfl
@[simp] theorem State.modHost_baseHist (s : State) (f : HostIf → HostIf) : (s.modHost f).baseHist = s.baseHist := rfl
@[simp] theorem State.modHost_refreshFail (s : State) (f : HostIf → HostIf) : (s.modHost f).refreshFail = s.refreshFail := rfl
@[simp] theorem State.modHost_refreshRetry (s : State) (f : HostIf → HostIf) : (s.modHost f).refreshRetry = s.refreshRetry := rfl
@[simp] theorem State.modHost_hbmFixed (s : State) (f : HostIf → HostIf) : (s.modHost f).hbmFixed = s.hbmFixed := rfl
@[simp] theorem State.modHost_refreshAt (s : State) (f : HostIf → HostIf) : (s.modHost f).refreshAt = s.refreshAt := rfl
@[simp] theorem State.modHost_taint (s : State) (f : HostIf → HostIf) : (s.modHost f).taint = s.taint := rfl
@[simp] theorem State.modHost_ports (s : State) (f : HostIf → HostIf) : (s.modHost f).ports = s.ports := rfl
@[simp] theorem State.modHost_tenants (s : State) (f : HostIf → HostIf) : (s.modHost f).tenants = s.tenants := rfl
@[simp] theorem State.modHost_spandrels (s : State) (f : HostIf → HostIf) : (s.modHost f).spandrels = s.spandrels := rfl
@[simp] theorem State.modHost_cwys (s : State) (f : HostIf → HostIf) : (s.modHost f).cwys = s.cwys := rfl
@[simp] theorem State.modHost_reqs (s : State) (f : HostIf → HostIf) : (s.modHost f).reqs = s.reqs := rfl
@[simp] theorem State.modHost_nOrders (s : State) (f : HostIf → HostIf) : (s.modHost f).nOrders = s.nOrders := rfl
@[simp] theorem State.modHost_certs (s : State) (f : HostIf → HostIf) : (s.modHost f).certs = s.certs := rfl
@[simp] theorem State.modHost_draws (s : State) (f : HostIf → HostIf) : (s.modHost f).draws = s.draws := rfl
@[simp] theorem State.modHost_hbm (s : State) (f : HostIf → HostIf) : (s.modHost f).hbm = s.hbm := rfl
@[simp] theorem State.modHost_deck (s : State) (f : HostIf → HostIf) : (s.modHost f).deck = s.deck := rfl
@[simp] theorem State.modHost_sram (s : State) (f : HostIf → HostIf) : (s.modHost f).sram = s.sram := rfl
@[simp] theorem State.modHost_pending (s : State) (f : HostIf → HostIf) : (s.modHost f).pending = s.pending := rfl
@[simp] theorem State.modHost_out (s : State) (f : HostIf → HostIf) : (s.modHost f).out = s.out := rfl

/-! ### modEvt -/

@[simp] theorem State.modEvt_pw (s : State) (f : EvtRing → EvtRing) : (s.modEvt f).pw = s.pw := rfl
@[simp] theorem State.modEvt_en (s : State) (f : EvtRing → EvtRing) : (s.modEvt f).en = s.en := rfl
@[simp] theorem State.modEvt_thm (s : State) (f : EvtRing → EvtRing) : (s.modEvt f).thm = s.thm := rfl
@[simp] theorem State.modEvt_words (s : State) (f : EvtRing → EvtRing) : (s.modEvt f).words = s.words := rfl
@[simp] theorem State.modEvt_mgt (s : State) (f : EvtRing → EvtRing) : (s.modEvt f).mgt = s.mgt := rfl
@[simp] theorem State.modEvt_chain (s : State) (f : EvtRing → EvtRing) : (s.modEvt f).chain = s.chain := rfl
@[simp] theorem State.modEvt_nv (s : State) (f : EvtRing → EvtRing) : (s.modEvt f).nv = s.nv := rfl
@[simp] theorem State.modEvt_ledger (s : State) (f : EvtRing → EvtRing) : (s.modEvt f).ledger = s.ledger := rfl
@[simp] theorem State.modEvt_bays (s : State) (f : EvtRing → EvtRing) : (s.modEvt f).bays = s.bays := rfl
@[simp] theorem State.modEvt_girders (s : State) (f : EvtRing → EvtRing) : (s.modEvt f).girders = s.girders := rfl
@[simp] theorem State.modEvt_ras (s : State) (f : EvtRing → EvtRing) : (s.modEvt f).ras = s.ras := rfl
@[simp] theorem State.modEvt_vref (s : State) (f : EvtRing → EvtRing) : (s.modEvt f).vref = s.vref := rfl
@[simp] theorem State.modEvt_baseHist (s : State) (f : EvtRing → EvtRing) : (s.modEvt f).baseHist = s.baseHist := rfl
@[simp] theorem State.modEvt_refreshFail (s : State) (f : EvtRing → EvtRing) : (s.modEvt f).refreshFail = s.refreshFail := rfl
@[simp] theorem State.modEvt_refreshRetry (s : State) (f : EvtRing → EvtRing) : (s.modEvt f).refreshRetry = s.refreshRetry := rfl
@[simp] theorem State.modEvt_hbmFixed (s : State) (f : EvtRing → EvtRing) : (s.modEvt f).hbmFixed = s.hbmFixed := rfl
@[simp] theorem State.modEvt_refreshAt (s : State) (f : EvtRing → EvtRing) : (s.modEvt f).refreshAt = s.refreshAt := rfl
@[simp] theorem State.modEvt_taint (s : State) (f : EvtRing → EvtRing) : (s.modEvt f).taint = s.taint := rfl
@[simp] theorem State.modEvt_ports (s : State) (f : EvtRing → EvtRing) : (s.modEvt f).ports = s.ports := rfl
@[simp] theorem State.modEvt_tenants (s : State) (f : EvtRing → EvtRing) : (s.modEvt f).tenants = s.tenants := rfl
@[simp] theorem State.modEvt_spandrels (s : State) (f : EvtRing → EvtRing) : (s.modEvt f).spandrels = s.spandrels := rfl
@[simp] theorem State.modEvt_cwys (s : State) (f : EvtRing → EvtRing) : (s.modEvt f).cwys = s.cwys := rfl
@[simp] theorem State.modEvt_reqs (s : State) (f : EvtRing → EvtRing) : (s.modEvt f).reqs = s.reqs := rfl
@[simp] theorem State.modEvt_nOrders (s : State) (f : EvtRing → EvtRing) : (s.modEvt f).nOrders = s.nOrders := rfl
@[simp] theorem State.modEvt_certs (s : State) (f : EvtRing → EvtRing) : (s.modEvt f).certs = s.certs := rfl
@[simp] theorem State.modEvt_draws (s : State) (f : EvtRing → EvtRing) : (s.modEvt f).draws = s.draws := rfl
@[simp] theorem State.modEvt_hbm (s : State) (f : EvtRing → EvtRing) : (s.modEvt f).hbm = s.hbm := rfl
@[simp] theorem State.modEvt_deck (s : State) (f : EvtRing → EvtRing) : (s.modEvt f).deck = s.deck := rfl
@[simp] theorem State.modEvt_sram (s : State) (f : EvtRing → EvtRing) : (s.modEvt f).sram = s.sram := rfl
@[simp] theorem State.modEvt_pending (s : State) (f : EvtRing → EvtRing) : (s.modEvt f).pending = s.pending := rfl
@[simp] theorem State.modEvt_out (s : State) (f : EvtRing → EvtRing) : (s.modEvt f).out = s.out := rfl

/-! ### modRing -/

@[simp] theorem State.modRing_pw (s : State) (r : Nat) (f : Ring → Ring) : (s.modRing r f).pw = s.pw := rfl
@[simp] theorem State.modRing_en (s : State) (r : Nat) (f : Ring → Ring) : (s.modRing r f).en = s.en := rfl
@[simp] theorem State.modRing_thm (s : State) (r : Nat) (f : Ring → Ring) : (s.modRing r f).thm = s.thm := rfl
@[simp] theorem State.modRing_words (s : State) (r : Nat) (f : Ring → Ring) : (s.modRing r f).words = s.words := rfl
@[simp] theorem State.modRing_mgt (s : State) (r : Nat) (f : Ring → Ring) : (s.modRing r f).mgt = s.mgt := rfl
@[simp] theorem State.modRing_chain (s : State) (r : Nat) (f : Ring → Ring) : (s.modRing r f).chain = s.chain := rfl
@[simp] theorem State.modRing_nv (s : State) (r : Nat) (f : Ring → Ring) : (s.modRing r f).nv = s.nv := rfl
@[simp] theorem State.modRing_ledger (s : State) (r : Nat) (f : Ring → Ring) : (s.modRing r f).ledger = s.ledger := rfl
@[simp] theorem State.modRing_bays (s : State) (r : Nat) (f : Ring → Ring) : (s.modRing r f).bays = s.bays := rfl
@[simp] theorem State.modRing_girders (s : State) (r : Nat) (f : Ring → Ring) : (s.modRing r f).girders = s.girders := rfl
@[simp] theorem State.modRing_ras (s : State) (r : Nat) (f : Ring → Ring) : (s.modRing r f).ras = s.ras := rfl
@[simp] theorem State.modRing_vref (s : State) (r : Nat) (f : Ring → Ring) : (s.modRing r f).vref = s.vref := rfl
@[simp] theorem State.modRing_baseHist (s : State) (r : Nat) (f : Ring → Ring) : (s.modRing r f).baseHist = s.baseHist := rfl
@[simp] theorem State.modRing_refreshFail (s : State) (r : Nat) (f : Ring → Ring) : (s.modRing r f).refreshFail = s.refreshFail := rfl
@[simp] theorem State.modRing_refreshRetry (s : State) (r : Nat) (f : Ring → Ring) : (s.modRing r f).refreshRetry = s.refreshRetry := rfl
@[simp] theorem State.modRing_hbmFixed (s : State) (r : Nat) (f : Ring → Ring) : (s.modRing r f).hbmFixed = s.hbmFixed := rfl
@[simp] theorem State.modRing_refreshAt (s : State) (r : Nat) (f : Ring → Ring) : (s.modRing r f).refreshAt = s.refreshAt := rfl
@[simp] theorem State.modRing_taint (s : State) (r : Nat) (f : Ring → Ring) : (s.modRing r f).taint = s.taint := rfl
@[simp] theorem State.modRing_ports (s : State) (r : Nat) (f : Ring → Ring) : (s.modRing r f).ports = s.ports := rfl
@[simp] theorem State.modRing_tenants (s : State) (r : Nat) (f : Ring → Ring) : (s.modRing r f).tenants = s.tenants := rfl
@[simp] theorem State.modRing_spandrels (s : State) (r : Nat) (f : Ring → Ring) : (s.modRing r f).spandrels = s.spandrels := rfl
@[simp] theorem State.modRing_cwys (s : State) (r : Nat) (f : Ring → Ring) : (s.modRing r f).cwys = s.cwys := rfl
@[simp] theorem State.modRing_reqs (s : State) (r : Nat) (f : Ring → Ring) : (s.modRing r f).reqs = s.reqs := rfl
@[simp] theorem State.modRing_nOrders (s : State) (r : Nat) (f : Ring → Ring) : (s.modRing r f).nOrders = s.nOrders := rfl
@[simp] theorem State.modRing_certs (s : State) (r : Nat) (f : Ring → Ring) : (s.modRing r f).certs = s.certs := rfl
@[simp] theorem State.modRing_draws (s : State) (r : Nat) (f : Ring → Ring) : (s.modRing r f).draws = s.draws := rfl
@[simp] theorem State.modRing_hbm (s : State) (r : Nat) (f : Ring → Ring) : (s.modRing r f).hbm = s.hbm := rfl
@[simp] theorem State.modRing_deck (s : State) (r : Nat) (f : Ring → Ring) : (s.modRing r f).deck = s.deck := rfl
@[simp] theorem State.modRing_sram (s : State) (r : Nat) (f : Ring → Ring) : (s.modRing r f).sram = s.sram := rfl
@[simp] theorem State.modRing_pending (s : State) (r : Nat) (f : Ring → Ring) : (s.modRing r f).pending = s.pending := rfl
@[simp] theorem State.modRing_out (s : State) (r : Nat) (f : Ring → Ring) : (s.modRing r f).out = s.out := rfl

/-! ### modPort -/

@[simp] theorem State.modPort_pw (s : State) (p : Nat) (f : Port → Port) : (s.modPort p f).pw = s.pw := rfl
@[simp] theorem State.modPort_en (s : State) (p : Nat) (f : Port → Port) : (s.modPort p f).en = s.en := rfl
@[simp] theorem State.modPort_thm (s : State) (p : Nat) (f : Port → Port) : (s.modPort p f).thm = s.thm := rfl
@[simp] theorem State.modPort_words (s : State) (p : Nat) (f : Port → Port) : (s.modPort p f).words = s.words := rfl
@[simp] theorem State.modPort_host (s : State) (p : Nat) (f : Port → Port) : (s.modPort p f).host = s.host := rfl
@[simp] theorem State.modPort_mgt (s : State) (p : Nat) (f : Port → Port) : (s.modPort p f).mgt = s.mgt := rfl
@[simp] theorem State.modPort_chain (s : State) (p : Nat) (f : Port → Port) : (s.modPort p f).chain = s.chain := rfl
@[simp] theorem State.modPort_nv (s : State) (p : Nat) (f : Port → Port) : (s.modPort p f).nv = s.nv := rfl
@[simp] theorem State.modPort_ledger (s : State) (p : Nat) (f : Port → Port) : (s.modPort p f).ledger = s.ledger := rfl
@[simp] theorem State.modPort_bays (s : State) (p : Nat) (f : Port → Port) : (s.modPort p f).bays = s.bays := rfl
@[simp] theorem State.modPort_girders (s : State) (p : Nat) (f : Port → Port) : (s.modPort p f).girders = s.girders := rfl
@[simp] theorem State.modPort_ras (s : State) (p : Nat) (f : Port → Port) : (s.modPort p f).ras = s.ras := rfl
@[simp] theorem State.modPort_vref (s : State) (p : Nat) (f : Port → Port) : (s.modPort p f).vref = s.vref := rfl
@[simp] theorem State.modPort_baseHist (s : State) (p : Nat) (f : Port → Port) : (s.modPort p f).baseHist = s.baseHist := rfl
@[simp] theorem State.modPort_refreshFail (s : State) (p : Nat) (f : Port → Port) : (s.modPort p f).refreshFail = s.refreshFail := rfl
@[simp] theorem State.modPort_refreshRetry (s : State) (p : Nat) (f : Port → Port) : (s.modPort p f).refreshRetry = s.refreshRetry := rfl
@[simp] theorem State.modPort_hbmFixed (s : State) (p : Nat) (f : Port → Port) : (s.modPort p f).hbmFixed = s.hbmFixed := rfl
@[simp] theorem State.modPort_refreshAt (s : State) (p : Nat) (f : Port → Port) : (s.modPort p f).refreshAt = s.refreshAt := rfl
@[simp] theorem State.modPort_taint (s : State) (p : Nat) (f : Port → Port) : (s.modPort p f).taint = s.taint := rfl
@[simp] theorem State.modPort_tenants (s : State) (p : Nat) (f : Port → Port) : (s.modPort p f).tenants = s.tenants := rfl
@[simp] theorem State.modPort_spandrels (s : State) (p : Nat) (f : Port → Port) : (s.modPort p f).spandrels = s.spandrels := rfl
@[simp] theorem State.modPort_cwys (s : State) (p : Nat) (f : Port → Port) : (s.modPort p f).cwys = s.cwys := rfl
@[simp] theorem State.modPort_reqs (s : State) (p : Nat) (f : Port → Port) : (s.modPort p f).reqs = s.reqs := rfl
@[simp] theorem State.modPort_nOrders (s : State) (p : Nat) (f : Port → Port) : (s.modPort p f).nOrders = s.nOrders := rfl
@[simp] theorem State.modPort_certs (s : State) (p : Nat) (f : Port → Port) : (s.modPort p f).certs = s.certs := rfl
@[simp] theorem State.modPort_draws (s : State) (p : Nat) (f : Port → Port) : (s.modPort p f).draws = s.draws := rfl
@[simp] theorem State.modPort_hbm (s : State) (p : Nat) (f : Port → Port) : (s.modPort p f).hbm = s.hbm := rfl
@[simp] theorem State.modPort_deck (s : State) (p : Nat) (f : Port → Port) : (s.modPort p f).deck = s.deck := rfl
@[simp] theorem State.modPort_sram (s : State) (p : Nat) (f : Port → Port) : (s.modPort p f).sram = s.sram := rfl
@[simp] theorem State.modPort_pending (s : State) (p : Nat) (f : Port → Port) : (s.modPort p f).pending = s.pending := rfl
@[simp] theorem State.modPort_out (s : State) (p : Nat) (f : Port → Port) : (s.modPort p f).out = s.out := rfl

/-! ### modTenant -/

@[simp] theorem State.modTenant_pw (s : State) (t : Nat) (f : Tenant → Tenant) : (s.modTenant t f).pw = s.pw := rfl
@[simp] theorem State.modTenant_en (s : State) (t : Nat) (f : Tenant → Tenant) : (s.modTenant t f).en = s.en := rfl
@[simp] theorem State.modTenant_thm (s : State) (t : Nat) (f : Tenant → Tenant) : (s.modTenant t f).thm = s.thm := rfl
@[simp] theorem State.modTenant_words (s : State) (t : Nat) (f : Tenant → Tenant) : (s.modTenant t f).words = s.words := rfl
@[simp] theorem State.modTenant_host (s : State) (t : Nat) (f : Tenant → Tenant) : (s.modTenant t f).host = s.host := rfl
@[simp] theorem State.modTenant_mgt (s : State) (t : Nat) (f : Tenant → Tenant) : (s.modTenant t f).mgt = s.mgt := rfl
@[simp] theorem State.modTenant_chain (s : State) (t : Nat) (f : Tenant → Tenant) : (s.modTenant t f).chain = s.chain := rfl
@[simp] theorem State.modTenant_nv (s : State) (t : Nat) (f : Tenant → Tenant) : (s.modTenant t f).nv = s.nv := rfl
@[simp] theorem State.modTenant_ledger (s : State) (t : Nat) (f : Tenant → Tenant) : (s.modTenant t f).ledger = s.ledger := rfl
@[simp] theorem State.modTenant_bays (s : State) (t : Nat) (f : Tenant → Tenant) : (s.modTenant t f).bays = s.bays := rfl
@[simp] theorem State.modTenant_girders (s : State) (t : Nat) (f : Tenant → Tenant) : (s.modTenant t f).girders = s.girders := rfl
@[simp] theorem State.modTenant_ras (s : State) (t : Nat) (f : Tenant → Tenant) : (s.modTenant t f).ras = s.ras := rfl
@[simp] theorem State.modTenant_vref (s : State) (t : Nat) (f : Tenant → Tenant) : (s.modTenant t f).vref = s.vref := rfl
@[simp] theorem State.modTenant_baseHist (s : State) (t : Nat) (f : Tenant → Tenant) : (s.modTenant t f).baseHist = s.baseHist := rfl
@[simp] theorem State.modTenant_refreshFail (s : State) (t : Nat) (f : Tenant → Tenant) : (s.modTenant t f).refreshFail = s.refreshFail := rfl
@[simp] theorem State.modTenant_refreshRetry (s : State) (t : Nat) (f : Tenant → Tenant) : (s.modTenant t f).refreshRetry = s.refreshRetry := rfl
@[simp] theorem State.modTenant_hbmFixed (s : State) (t : Nat) (f : Tenant → Tenant) : (s.modTenant t f).hbmFixed = s.hbmFixed := rfl
@[simp] theorem State.modTenant_refreshAt (s : State) (t : Nat) (f : Tenant → Tenant) : (s.modTenant t f).refreshAt = s.refreshAt := rfl
@[simp] theorem State.modTenant_taint (s : State) (t : Nat) (f : Tenant → Tenant) : (s.modTenant t f).taint = s.taint := rfl
@[simp] theorem State.modTenant_ports (s : State) (t : Nat) (f : Tenant → Tenant) : (s.modTenant t f).ports = s.ports := rfl
@[simp] theorem State.modTenant_spandrels (s : State) (t : Nat) (f : Tenant → Tenant) : (s.modTenant t f).spandrels = s.spandrels := rfl
@[simp] theorem State.modTenant_cwys (s : State) (t : Nat) (f : Tenant → Tenant) : (s.modTenant t f).cwys = s.cwys := rfl
@[simp] theorem State.modTenant_reqs (s : State) (t : Nat) (f : Tenant → Tenant) : (s.modTenant t f).reqs = s.reqs := rfl
@[simp] theorem State.modTenant_nOrders (s : State) (t : Nat) (f : Tenant → Tenant) : (s.modTenant t f).nOrders = s.nOrders := rfl
@[simp] theorem State.modTenant_certs (s : State) (t : Nat) (f : Tenant → Tenant) : (s.modTenant t f).certs = s.certs := rfl
@[simp] theorem State.modTenant_draws (s : State) (t : Nat) (f : Tenant → Tenant) : (s.modTenant t f).draws = s.draws := rfl
@[simp] theorem State.modTenant_hbm (s : State) (t : Nat) (f : Tenant → Tenant) : (s.modTenant t f).hbm = s.hbm := rfl
@[simp] theorem State.modTenant_deck (s : State) (t : Nat) (f : Tenant → Tenant) : (s.modTenant t f).deck = s.deck := rfl
@[simp] theorem State.modTenant_sram (s : State) (t : Nat) (f : Tenant → Tenant) : (s.modTenant t f).sram = s.sram := rfl
@[simp] theorem State.modTenant_pending (s : State) (t : Nat) (f : Tenant → Tenant) : (s.modTenant t f).pending = s.pending := rfl
@[simp] theorem State.modTenant_out (s : State) (t : Nat) (f : Tenant → Tenant) : (s.modTenant t f).out = s.out := rfl

/-! ### modSp -/

@[simp] theorem State.modSp_pw (s : State) (n : Nat) (f : Spandrel → Spandrel) : (s.modSp n f).pw = s.pw := rfl
@[simp] theorem State.modSp_en (s : State) (n : Nat) (f : Spandrel → Spandrel) : (s.modSp n f).en = s.en := rfl
@[simp] theorem State.modSp_thm (s : State) (n : Nat) (f : Spandrel → Spandrel) : (s.modSp n f).thm = s.thm := rfl
@[simp] theorem State.modSp_words (s : State) (n : Nat) (f : Spandrel → Spandrel) : (s.modSp n f).words = s.words := rfl
@[simp] theorem State.modSp_host (s : State) (n : Nat) (f : Spandrel → Spandrel) : (s.modSp n f).host = s.host := rfl
@[simp] theorem State.modSp_mgt (s : State) (n : Nat) (f : Spandrel → Spandrel) : (s.modSp n f).mgt = s.mgt := rfl
@[simp] theorem State.modSp_chain (s : State) (n : Nat) (f : Spandrel → Spandrel) : (s.modSp n f).chain = s.chain := rfl
@[simp] theorem State.modSp_nv (s : State) (n : Nat) (f : Spandrel → Spandrel) : (s.modSp n f).nv = s.nv := rfl
@[simp] theorem State.modSp_ledger (s : State) (n : Nat) (f : Spandrel → Spandrel) : (s.modSp n f).ledger = s.ledger := rfl
@[simp] theorem State.modSp_bays (s : State) (n : Nat) (f : Spandrel → Spandrel) : (s.modSp n f).bays = s.bays := rfl
@[simp] theorem State.modSp_girders (s : State) (n : Nat) (f : Spandrel → Spandrel) : (s.modSp n f).girders = s.girders := rfl
@[simp] theorem State.modSp_ras (s : State) (n : Nat) (f : Spandrel → Spandrel) : (s.modSp n f).ras = s.ras := rfl
@[simp] theorem State.modSp_vref (s : State) (n : Nat) (f : Spandrel → Spandrel) : (s.modSp n f).vref = s.vref := rfl
@[simp] theorem State.modSp_baseHist (s : State) (n : Nat) (f : Spandrel → Spandrel) : (s.modSp n f).baseHist = s.baseHist := rfl
@[simp] theorem State.modSp_refreshFail (s : State) (n : Nat) (f : Spandrel → Spandrel) : (s.modSp n f).refreshFail = s.refreshFail := rfl
@[simp] theorem State.modSp_refreshRetry (s : State) (n : Nat) (f : Spandrel → Spandrel) : (s.modSp n f).refreshRetry = s.refreshRetry := rfl
@[simp] theorem State.modSp_hbmFixed (s : State) (n : Nat) (f : Spandrel → Spandrel) : (s.modSp n f).hbmFixed = s.hbmFixed := rfl
@[simp] theorem State.modSp_refreshAt (s : State) (n : Nat) (f : Spandrel → Spandrel) : (s.modSp n f).refreshAt = s.refreshAt := rfl
@[simp] theorem State.modSp_taint (s : State) (n : Nat) (f : Spandrel → Spandrel) : (s.modSp n f).taint = s.taint := rfl
@[simp] theorem State.modSp_ports (s : State) (n : Nat) (f : Spandrel → Spandrel) : (s.modSp n f).ports = s.ports := rfl
@[simp] theorem State.modSp_tenants (s : State) (n : Nat) (f : Spandrel → Spandrel) : (s.modSp n f).tenants = s.tenants := rfl
@[simp] theorem State.modSp_cwys (s : State) (n : Nat) (f : Spandrel → Spandrel) : (s.modSp n f).cwys = s.cwys := rfl
@[simp] theorem State.modSp_reqs (s : State) (n : Nat) (f : Spandrel → Spandrel) : (s.modSp n f).reqs = s.reqs := rfl
@[simp] theorem State.modSp_nOrders (s : State) (n : Nat) (f : Spandrel → Spandrel) : (s.modSp n f).nOrders = s.nOrders := rfl
@[simp] theorem State.modSp_certs (s : State) (n : Nat) (f : Spandrel → Spandrel) : (s.modSp n f).certs = s.certs := rfl
@[simp] theorem State.modSp_draws (s : State) (n : Nat) (f : Spandrel → Spandrel) : (s.modSp n f).draws = s.draws := rfl
@[simp] theorem State.modSp_hbm (s : State) (n : Nat) (f : Spandrel → Spandrel) : (s.modSp n f).hbm = s.hbm := rfl
@[simp] theorem State.modSp_deck (s : State) (n : Nat) (f : Spandrel → Spandrel) : (s.modSp n f).deck = s.deck := rfl
@[simp] theorem State.modSp_sram (s : State) (n : Nat) (f : Spandrel → Spandrel) : (s.modSp n f).sram = s.sram := rfl
@[simp] theorem State.modSp_pending (s : State) (n : Nat) (f : Spandrel → Spandrel) : (s.modSp n f).pending = s.pending := rfl
@[simp] theorem State.modSp_out (s : State) (n : Nat) (f : Spandrel → Spandrel) : (s.modSp n f).out = s.out := rfl

/-! ### modRas -/

@[simp] theorem State.modRas_pw (s : State) (f : Ras → Ras) : (s.modRas f).pw = s.pw := rfl
@[simp] theorem State.modRas_en (s : State) (f : Ras → Ras) : (s.modRas f).en = s.en := rfl
@[simp] theorem State.modRas_thm (s : State) (f : Ras → Ras) : (s.modRas f).thm = s.thm := rfl
@[simp] theorem State.modRas_words (s : State) (f : Ras → Ras) : (s.modRas f).words = s.words := rfl
@[simp] theorem State.modRas_host (s : State) (f : Ras → Ras) : (s.modRas f).host = s.host := rfl
@[simp] theorem State.modRas_mgt (s : State) (f : Ras → Ras) : (s.modRas f).mgt = s.mgt := rfl
@[simp] theorem State.modRas_chain (s : State) (f : Ras → Ras) : (s.modRas f).chain = s.chain := rfl
@[simp] theorem State.modRas_nv (s : State) (f : Ras → Ras) : (s.modRas f).nv = s.nv := rfl
@[simp] theorem State.modRas_ledger (s : State) (f : Ras → Ras) : (s.modRas f).ledger = s.ledger := rfl
@[simp] theorem State.modRas_bays (s : State) (f : Ras → Ras) : (s.modRas f).bays = s.bays := rfl
@[simp] theorem State.modRas_girders (s : State) (f : Ras → Ras) : (s.modRas f).girders = s.girders := rfl
@[simp] theorem State.modRas_ras (s : State) (f : Ras → Ras) : (s.modRas f).ras = f s.ras := rfl
@[simp] theorem State.modRas_vref (s : State) (f : Ras → Ras) : (s.modRas f).vref = s.vref := rfl
@[simp] theorem State.modRas_baseHist (s : State) (f : Ras → Ras) : (s.modRas f).baseHist = s.baseHist := rfl
@[simp] theorem State.modRas_refreshFail (s : State) (f : Ras → Ras) : (s.modRas f).refreshFail = s.refreshFail := rfl
@[simp] theorem State.modRas_refreshRetry (s : State) (f : Ras → Ras) : (s.modRas f).refreshRetry = s.refreshRetry := rfl
@[simp] theorem State.modRas_hbmFixed (s : State) (f : Ras → Ras) : (s.modRas f).hbmFixed = s.hbmFixed := rfl
@[simp] theorem State.modRas_refreshAt (s : State) (f : Ras → Ras) : (s.modRas f).refreshAt = s.refreshAt := rfl
@[simp] theorem State.modRas_taint (s : State) (f : Ras → Ras) : (s.modRas f).taint = s.taint := rfl
@[simp] theorem State.modRas_ports (s : State) (f : Ras → Ras) : (s.modRas f).ports = s.ports := rfl
@[simp] theorem State.modRas_tenants (s : State) (f : Ras → Ras) : (s.modRas f).tenants = s.tenants := rfl
@[simp] theorem State.modRas_spandrels (s : State) (f : Ras → Ras) : (s.modRas f).spandrels = s.spandrels := rfl
@[simp] theorem State.modRas_cwys (s : State) (f : Ras → Ras) : (s.modRas f).cwys = s.cwys := rfl
@[simp] theorem State.modRas_reqs (s : State) (f : Ras → Ras) : (s.modRas f).reqs = s.reqs := rfl
@[simp] theorem State.modRas_nOrders (s : State) (f : Ras → Ras) : (s.modRas f).nOrders = s.nOrders := rfl
@[simp] theorem State.modRas_certs (s : State) (f : Ras → Ras) : (s.modRas f).certs = s.certs := rfl
@[simp] theorem State.modRas_draws (s : State) (f : Ras → Ras) : (s.modRas f).draws = s.draws := rfl
@[simp] theorem State.modRas_hbm (s : State) (f : Ras → Ras) : (s.modRas f).hbm = s.hbm := rfl
@[simp] theorem State.modRas_deck (s : State) (f : Ras → Ras) : (s.modRas f).deck = s.deck := rfl
@[simp] theorem State.modRas_sram (s : State) (f : Ras → Ras) : (s.modRas f).sram = s.sram := rfl
@[simp] theorem State.modRas_pending (s : State) (f : Ras → Ras) : (s.modRas f).pending = s.pending := rfl
@[simp] theorem State.modRas_out (s : State) (f : Ras → Ras) : (s.modRas f).out = s.out := rfl

/-! ### modPw -/

@[simp] theorem State.modPw_pw (s : State) (f : Power → Power) : (s.modPw f).pw = f s.pw := rfl
@[simp] theorem State.modPw_en (s : State) (f : Power → Power) : (s.modPw f).en = s.en := rfl
@[simp] theorem State.modPw_thm (s : State) (f : Power → Power) : (s.modPw f).thm = s.thm := rfl
@[simp] theorem State.modPw_words (s : State) (f : Power → Power) : (s.modPw f).words = s.words := rfl
@[simp] theorem State.modPw_host (s : State) (f : Power → Power) : (s.modPw f).host = s.host := rfl
@[simp] theorem State.modPw_mgt (s : State) (f : Power → Power) : (s.modPw f).mgt = s.mgt := rfl
@[simp] theorem State.modPw_chain (s : State) (f : Power → Power) : (s.modPw f).chain = s.chain := rfl
@[simp] theorem State.modPw_nv (s : State) (f : Power → Power) : (s.modPw f).nv = s.nv := rfl
@[simp] theorem State.modPw_ledger (s : State) (f : Power → Power) : (s.modPw f).ledger = s.ledger := rfl
@[simp] theorem State.modPw_bays (s : State) (f : Power → Power) : (s.modPw f).bays = s.bays := rfl
@[simp] theorem State.modPw_girders (s : State) (f : Power → Power) : (s.modPw f).girders = s.girders := rfl
@[simp] theorem State.modPw_ras (s : State) (f : Power → Power) : (s.modPw f).ras = s.ras := rfl
@[simp] theorem State.modPw_vref (s : State) (f : Power → Power) : (s.modPw f).vref = s.vref := rfl
@[simp] theorem State.modPw_baseHist (s : State) (f : Power → Power) : (s.modPw f).baseHist = s.baseHist := rfl
@[simp] theorem State.modPw_refreshFail (s : State) (f : Power → Power) : (s.modPw f).refreshFail = s.refreshFail := rfl
@[simp] theorem State.modPw_refreshRetry (s : State) (f : Power → Power) : (s.modPw f).refreshRetry = s.refreshRetry := rfl
@[simp] theorem State.modPw_hbmFixed (s : State) (f : Power → Power) : (s.modPw f).hbmFixed = s.hbmFixed := rfl
@[simp] theorem State.modPw_refreshAt (s : State) (f : Power → Power) : (s.modPw f).refreshAt = s.refreshAt := rfl
@[simp] theorem State.modPw_taint (s : State) (f : Power → Power) : (s.modPw f).taint = s.taint := rfl
@[simp] theorem State.modPw_ports (s : State) (f : Power → Power) : (s.modPw f).ports = s.ports := rfl
@[simp] theorem State.modPw_tenants (s : State) (f : Power → Power) : (s.modPw f).tenants = s.tenants := rfl
@[simp] theorem State.modPw_spandrels (s : State) (f : Power → Power) : (s.modPw f).spandrels = s.spandrels := rfl
@[simp] theorem State.modPw_cwys (s : State) (f : Power → Power) : (s.modPw f).cwys = s.cwys := rfl
@[simp] theorem State.modPw_reqs (s : State) (f : Power → Power) : (s.modPw f).reqs = s.reqs := rfl
@[simp] theorem State.modPw_nOrders (s : State) (f : Power → Power) : (s.modPw f).nOrders = s.nOrders := rfl
@[simp] theorem State.modPw_certs (s : State) (f : Power → Power) : (s.modPw f).certs = s.certs := rfl
@[simp] theorem State.modPw_draws (s : State) (f : Power → Power) : (s.modPw f).draws = s.draws := rfl
@[simp] theorem State.modPw_hbm (s : State) (f : Power → Power) : (s.modPw f).hbm = s.hbm := rfl
@[simp] theorem State.modPw_deck (s : State) (f : Power → Power) : (s.modPw f).deck = s.deck := rfl
@[simp] theorem State.modPw_sram (s : State) (f : Power → Power) : (s.modPw f).sram = s.sram := rfl
@[simp] theorem State.modPw_pending (s : State) (f : Power → Power) : (s.modPw f).pending = s.pending := rfl
@[simp] theorem State.modPw_out (s : State) (f : Power → Power) : (s.modPw f).out = s.out := rfl

/-! ### modEn -/

@[simp] theorem State.modEn_pw (s : State) (f : Energy → Energy) : (s.modEn f).pw = s.pw := rfl
@[simp] theorem State.modEn_en (s : State) (f : Energy → Energy) : (s.modEn f).en = f s.en := rfl
@[simp] theorem State.modEn_thm (s : State) (f : Energy → Energy) : (s.modEn f).thm = s.thm := rfl
@[simp] theorem State.modEn_words (s : State) (f : Energy → Energy) : (s.modEn f).words = s.words := rfl
@[simp] theorem State.modEn_host (s : State) (f : Energy → Energy) : (s.modEn f).host = s.host := rfl
@[simp] theorem State.modEn_mgt (s : State) (f : Energy → Energy) : (s.modEn f).mgt = s.mgt := rfl
@[simp] theorem State.modEn_chain (s : State) (f : Energy → Energy) : (s.modEn f).chain = s.chain := rfl
@[simp] theorem State.modEn_nv (s : State) (f : Energy → Energy) : (s.modEn f).nv = s.nv := rfl
@[simp] theorem State.modEn_ledger (s : State) (f : Energy → Energy) : (s.modEn f).ledger = s.ledger := rfl
@[simp] theorem State.modEn_bays (s : State) (f : Energy → Energy) : (s.modEn f).bays = s.bays := rfl
@[simp] theorem State.modEn_girders (s : State) (f : Energy → Energy) : (s.modEn f).girders = s.girders := rfl
@[simp] theorem State.modEn_ras (s : State) (f : Energy → Energy) : (s.modEn f).ras = s.ras := rfl
@[simp] theorem State.modEn_vref (s : State) (f : Energy → Energy) : (s.modEn f).vref = s.vref := rfl
@[simp] theorem State.modEn_baseHist (s : State) (f : Energy → Energy) : (s.modEn f).baseHist = s.baseHist := rfl
@[simp] theorem State.modEn_refreshFail (s : State) (f : Energy → Energy) : (s.modEn f).refreshFail = s.refreshFail := rfl
@[simp] theorem State.modEn_refreshRetry (s : State) (f : Energy → Energy) : (s.modEn f).refreshRetry = s.refreshRetry := rfl
@[simp] theorem State.modEn_hbmFixed (s : State) (f : Energy → Energy) : (s.modEn f).hbmFixed = s.hbmFixed := rfl
@[simp] theorem State.modEn_refreshAt (s : State) (f : Energy → Energy) : (s.modEn f).refreshAt = s.refreshAt := rfl
@[simp] theorem State.modEn_taint (s : State) (f : Energy → Energy) : (s.modEn f).taint = s.taint := rfl
@[simp] theorem State.modEn_ports (s : State) (f : Energy → Energy) : (s.modEn f).ports = s.ports := rfl
@[simp] theorem State.modEn_tenants (s : State) (f : Energy → Energy) : (s.modEn f).tenants = s.tenants := rfl
@[simp] theorem State.modEn_spandrels (s : State) (f : Energy → Energy) : (s.modEn f).spandrels = s.spandrels := rfl
@[simp] theorem State.modEn_cwys (s : State) (f : Energy → Energy) : (s.modEn f).cwys = s.cwys := rfl
@[simp] theorem State.modEn_reqs (s : State) (f : Energy → Energy) : (s.modEn f).reqs = s.reqs := rfl
@[simp] theorem State.modEn_nOrders (s : State) (f : Energy → Energy) : (s.modEn f).nOrders = s.nOrders := rfl
@[simp] theorem State.modEn_certs (s : State) (f : Energy → Energy) : (s.modEn f).certs = s.certs := rfl
@[simp] theorem State.modEn_draws (s : State) (f : Energy → Energy) : (s.modEn f).draws = s.draws := rfl
@[simp] theorem State.modEn_hbm (s : State) (f : Energy → Energy) : (s.modEn f).hbm = s.hbm := rfl
@[simp] theorem State.modEn_deck (s : State) (f : Energy → Energy) : (s.modEn f).deck = s.deck := rfl
@[simp] theorem State.modEn_sram (s : State) (f : Energy → Energy) : (s.modEn f).sram = s.sram := rfl
@[simp] theorem State.modEn_pending (s : State) (f : Energy → Energy) : (s.modEn f).pending = s.pending := rfl
@[simp] theorem State.modEn_out (s : State) (f : Energy → Energy) : (s.modEn f).out = s.out := rfl

/-! ### modMgt -/

@[simp] theorem State.modMgt_pw (s : State) (f : Mgt → Mgt) : (s.modMgt f).pw = s.pw := rfl
@[simp] theorem State.modMgt_en (s : State) (f : Mgt → Mgt) : (s.modMgt f).en = s.en := rfl
@[simp] theorem State.modMgt_thm (s : State) (f : Mgt → Mgt) : (s.modMgt f).thm = s.thm := rfl
@[simp] theorem State.modMgt_words (s : State) (f : Mgt → Mgt) : (s.modMgt f).words = s.words := rfl
@[simp] theorem State.modMgt_host (s : State) (f : Mgt → Mgt) : (s.modMgt f).host = s.host := rfl
@[simp] theorem State.modMgt_mgt (s : State) (f : Mgt → Mgt) : (s.modMgt f).mgt = f s.mgt := rfl
@[simp] theorem State.modMgt_chain (s : State) (f : Mgt → Mgt) : (s.modMgt f).chain = s.chain := rfl
@[simp] theorem State.modMgt_nv (s : State) (f : Mgt → Mgt) : (s.modMgt f).nv = s.nv := rfl
@[simp] theorem State.modMgt_ledger (s : State) (f : Mgt → Mgt) : (s.modMgt f).ledger = s.ledger := rfl
@[simp] theorem State.modMgt_bays (s : State) (f : Mgt → Mgt) : (s.modMgt f).bays = s.bays := rfl
@[simp] theorem State.modMgt_girders (s : State) (f : Mgt → Mgt) : (s.modMgt f).girders = s.girders := rfl
@[simp] theorem State.modMgt_ras (s : State) (f : Mgt → Mgt) : (s.modMgt f).ras = s.ras := rfl
@[simp] theorem State.modMgt_vref (s : State) (f : Mgt → Mgt) : (s.modMgt f).vref = s.vref := rfl
@[simp] theorem State.modMgt_baseHist (s : State) (f : Mgt → Mgt) : (s.modMgt f).baseHist = s.baseHist := rfl
@[simp] theorem State.modMgt_refreshFail (s : State) (f : Mgt → Mgt) : (s.modMgt f).refreshFail = s.refreshFail := rfl
@[simp] theorem State.modMgt_refreshRetry (s : State) (f : Mgt → Mgt) : (s.modMgt f).refreshRetry = s.refreshRetry := rfl
@[simp] theorem State.modMgt_hbmFixed (s : State) (f : Mgt → Mgt) : (s.modMgt f).hbmFixed = s.hbmFixed := rfl
@[simp] theorem State.modMgt_refreshAt (s : State) (f : Mgt → Mgt) : (s.modMgt f).refreshAt = s.refreshAt := rfl
@[simp] theorem State.modMgt_taint (s : State) (f : Mgt → Mgt) : (s.modMgt f).taint = s.taint := rfl
@[simp] theorem State.modMgt_ports (s : State) (f : Mgt → Mgt) : (s.modMgt f).ports = s.ports := rfl
@[simp] theorem State.modMgt_tenants (s : State) (f : Mgt → Mgt) : (s.modMgt f).tenants = s.tenants := rfl
@[simp] theorem State.modMgt_spandrels (s : State) (f : Mgt → Mgt) : (s.modMgt f).spandrels = s.spandrels := rfl
@[simp] theorem State.modMgt_cwys (s : State) (f : Mgt → Mgt) : (s.modMgt f).cwys = s.cwys := rfl
@[simp] theorem State.modMgt_reqs (s : State) (f : Mgt → Mgt) : (s.modMgt f).reqs = s.reqs := rfl
@[simp] theorem State.modMgt_nOrders (s : State) (f : Mgt → Mgt) : (s.modMgt f).nOrders = s.nOrders := rfl
@[simp] theorem State.modMgt_certs (s : State) (f : Mgt → Mgt) : (s.modMgt f).certs = s.certs := rfl
@[simp] theorem State.modMgt_draws (s : State) (f : Mgt → Mgt) : (s.modMgt f).draws = s.draws := rfl
@[simp] theorem State.modMgt_hbm (s : State) (f : Mgt → Mgt) : (s.modMgt f).hbm = s.hbm := rfl
@[simp] theorem State.modMgt_deck (s : State) (f : Mgt → Mgt) : (s.modMgt f).deck = s.deck := rfl
@[simp] theorem State.modMgt_sram (s : State) (f : Mgt → Mgt) : (s.modMgt f).sram = s.sram := rfl
@[simp] theorem State.modMgt_pending (s : State) (f : Mgt → Mgt) : (s.modMgt f).pending = s.pending := rfl
@[simp] theorem State.modMgt_out (s : State) (f : Mgt → Mgt) : (s.modMgt f).out = s.out := rfl

/-! ### modChain -/

@[simp] theorem State.modChain_pw (s : State) (f : Chain → Chain) : (s.modChain f).pw = s.pw := rfl
@[simp] theorem State.modChain_en (s : State) (f : Chain → Chain) : (s.modChain f).en = s.en := rfl
@[simp] theorem State.modChain_thm (s : State) (f : Chain → Chain) : (s.modChain f).thm = s.thm := rfl
@[simp] theorem State.modChain_words (s : State) (f : Chain → Chain) : (s.modChain f).words = s.words := rfl
@[simp] theorem State.modChain_host (s : State) (f : Chain → Chain) : (s.modChain f).host = s.host := rfl
@[simp] theorem State.modChain_mgt (s : State) (f : Chain → Chain) : (s.modChain f).mgt = s.mgt := rfl
@[simp] theorem State.modChain_chain (s : State) (f : Chain → Chain) : (s.modChain f).chain = f s.chain := rfl
@[simp] theorem State.modChain_nv (s : State) (f : Chain → Chain) : (s.modChain f).nv = s.nv := rfl
@[simp] theorem State.modChain_ledger (s : State) (f : Chain → Chain) : (s.modChain f).ledger = s.ledger := rfl
@[simp] theorem State.modChain_bays (s : State) (f : Chain → Chain) : (s.modChain f).bays = s.bays := rfl
@[simp] theorem State.modChain_girders (s : State) (f : Chain → Chain) : (s.modChain f).girders = s.girders := rfl
@[simp] theorem State.modChain_ras (s : State) (f : Chain → Chain) : (s.modChain f).ras = s.ras := rfl
@[simp] theorem State.modChain_vref (s : State) (f : Chain → Chain) : (s.modChain f).vref = s.vref := rfl
@[simp] theorem State.modChain_baseHist (s : State) (f : Chain → Chain) : (s.modChain f).baseHist = s.baseHist := rfl
@[simp] theorem State.modChain_refreshFail (s : State) (f : Chain → Chain) : (s.modChain f).refreshFail = s.refreshFail := rfl
@[simp] theorem State.modChain_refreshRetry (s : State) (f : Chain → Chain) : (s.modChain f).refreshRetry = s.refreshRetry := rfl
@[simp] theorem State.modChain_hbmFixed (s : State) (f : Chain → Chain) : (s.modChain f).hbmFixed = s.hbmFixed := rfl
@[simp] theorem State.modChain_refreshAt (s : State) (f : Chain → Chain) : (s.modChain f).refreshAt = s.refreshAt := rfl
@[simp] theorem State.modChain_taint (s : State) (f : Chain → Chain) : (s.modChain f).taint = s.taint := rfl
@[simp] theorem State.modChain_ports (s : State) (f : Chain → Chain) : (s.modChain f).ports = s.ports := rfl
@[simp] theorem State.modChain_tenants (s : State) (f : Chain → Chain) : (s.modChain f).tenants = s.tenants := rfl
@[simp] theorem State.modChain_spandrels (s : State) (f : Chain → Chain) : (s.modChain f).spandrels = s.spandrels := rfl
@[simp] theorem State.modChain_cwys (s : State) (f : Chain → Chain) : (s.modChain f).cwys = s.cwys := rfl
@[simp] theorem State.modChain_reqs (s : State) (f : Chain → Chain) : (s.modChain f).reqs = s.reqs := rfl
@[simp] theorem State.modChain_nOrders (s : State) (f : Chain → Chain) : (s.modChain f).nOrders = s.nOrders := rfl
@[simp] theorem State.modChain_certs (s : State) (f : Chain → Chain) : (s.modChain f).certs = s.certs := rfl
@[simp] theorem State.modChain_draws (s : State) (f : Chain → Chain) : (s.modChain f).draws = s.draws := rfl
@[simp] theorem State.modChain_hbm (s : State) (f : Chain → Chain) : (s.modChain f).hbm = s.hbm := rfl
@[simp] theorem State.modChain_deck (s : State) (f : Chain → Chain) : (s.modChain f).deck = s.deck := rfl
@[simp] theorem State.modChain_sram (s : State) (f : Chain → Chain) : (s.modChain f).sram = s.sram := rfl
@[simp] theorem State.modChain_pending (s : State) (f : Chain → Chain) : (s.modChain f).pending = s.pending := rfl
@[simp] theorem State.modChain_out (s : State) (f : Chain → Chain) : (s.modChain f).out = s.out := rfl

/-! ### modLedger -/

@[simp] theorem State.modLedger_pw (s : State) (f : Ledger → Ledger) : (s.modLedger f).pw = s.pw := rfl
@[simp] theorem State.modLedger_en (s : State) (f : Ledger → Ledger) : (s.modLedger f).en = s.en := rfl
@[simp] theorem State.modLedger_thm (s : State) (f : Ledger → Ledger) : (s.modLedger f).thm = s.thm := rfl
@[simp] theorem State.modLedger_words (s : State) (f : Ledger → Ledger) : (s.modLedger f).words = s.words := rfl
@[simp] theorem State.modLedger_host (s : State) (f : Ledger → Ledger) : (s.modLedger f).host = s.host := rfl
@[simp] theorem State.modLedger_mgt (s : State) (f : Ledger → Ledger) : (s.modLedger f).mgt = s.mgt := rfl
@[simp] theorem State.modLedger_chain (s : State) (f : Ledger → Ledger) : (s.modLedger f).chain = s.chain := rfl
@[simp] theorem State.modLedger_nv (s : State) (f : Ledger → Ledger) : (s.modLedger f).nv = s.nv := rfl
@[simp] theorem State.modLedger_ledger (s : State) (f : Ledger → Ledger) : (s.modLedger f).ledger = f s.ledger := rfl
@[simp] theorem State.modLedger_bays (s : State) (f : Ledger → Ledger) : (s.modLedger f).bays = s.bays := rfl
@[simp] theorem State.modLedger_girders (s : State) (f : Ledger → Ledger) : (s.modLedger f).girders = s.girders := rfl
@[simp] theorem State.modLedger_ras (s : State) (f : Ledger → Ledger) : (s.modLedger f).ras = s.ras := rfl
@[simp] theorem State.modLedger_vref (s : State) (f : Ledger → Ledger) : (s.modLedger f).vref = s.vref := rfl
@[simp] theorem State.modLedger_baseHist (s : State) (f : Ledger → Ledger) : (s.modLedger f).baseHist = s.baseHist := rfl
@[simp] theorem State.modLedger_refreshFail (s : State) (f : Ledger → Ledger) : (s.modLedger f).refreshFail = s.refreshFail := rfl
@[simp] theorem State.modLedger_refreshRetry (s : State) (f : Ledger → Ledger) : (s.modLedger f).refreshRetry = s.refreshRetry := rfl
@[simp] theorem State.modLedger_hbmFixed (s : State) (f : Ledger → Ledger) : (s.modLedger f).hbmFixed = s.hbmFixed := rfl
@[simp] theorem State.modLedger_refreshAt (s : State) (f : Ledger → Ledger) : (s.modLedger f).refreshAt = s.refreshAt := rfl
@[simp] theorem State.modLedger_taint (s : State) (f : Ledger → Ledger) : (s.modLedger f).taint = s.taint := rfl
@[simp] theorem State.modLedger_ports (s : State) (f : Ledger → Ledger) : (s.modLedger f).ports = s.ports := rfl
@[simp] theorem State.modLedger_tenants (s : State) (f : Ledger → Ledger) : (s.modLedger f).tenants = s.tenants := rfl
@[simp] theorem State.modLedger_spandrels (s : State) (f : Ledger → Ledger) : (s.modLedger f).spandrels = s.spandrels := rfl
@[simp] theorem State.modLedger_cwys (s : State) (f : Ledger → Ledger) : (s.modLedger f).cwys = s.cwys := rfl
@[simp] theorem State.modLedger_reqs (s : State) (f : Ledger → Ledger) : (s.modLedger f).reqs = s.reqs := rfl
@[simp] theorem State.modLedger_nOrders (s : State) (f : Ledger → Ledger) : (s.modLedger f).nOrders = s.nOrders := rfl
@[simp] theorem State.modLedger_certs (s : State) (f : Ledger → Ledger) : (s.modLedger f).certs = s.certs := rfl
@[simp] theorem State.modLedger_draws (s : State) (f : Ledger → Ledger) : (s.modLedger f).draws = s.draws := rfl
@[simp] theorem State.modLedger_hbm (s : State) (f : Ledger → Ledger) : (s.modLedger f).hbm = s.hbm := rfl
@[simp] theorem State.modLedger_deck (s : State) (f : Ledger → Ledger) : (s.modLedger f).deck = s.deck := rfl
@[simp] theorem State.modLedger_sram (s : State) (f : Ledger → Ledger) : (s.modLedger f).sram = s.sram := rfl
@[simp] theorem State.modLedger_pending (s : State) (f : Ledger → Ledger) : (s.modLedger f).pending = s.pending := rfl
@[simp] theorem State.modLedger_out (s : State) (f : Ledger → Ledger) : (s.modLedger f).out = s.out := rfl

/-! ### modCerts -/

@[simp] theorem State.modCerts_pw (s : State) (f : Certs → Certs) : (s.modCerts f).pw = s.pw := rfl
@[simp] theorem State.modCerts_en (s : State) (f : Certs → Certs) : (s.modCerts f).en = s.en := rfl
@[simp] theorem State.modCerts_thm (s : State) (f : Certs → Certs) : (s.modCerts f).thm = s.thm := rfl
@[simp] theorem State.modCerts_words (s : State) (f : Certs → Certs) : (s.modCerts f).words = s.words := rfl
@[simp] theorem State.modCerts_host (s : State) (f : Certs → Certs) : (s.modCerts f).host = s.host := rfl
@[simp] theorem State.modCerts_mgt (s : State) (f : Certs → Certs) : (s.modCerts f).mgt = s.mgt := rfl
@[simp] theorem State.modCerts_chain (s : State) (f : Certs → Certs) : (s.modCerts f).chain = s.chain := rfl
@[simp] theorem State.modCerts_nv (s : State) (f : Certs → Certs) : (s.modCerts f).nv = s.nv := rfl
@[simp] theorem State.modCerts_ledger (s : State) (f : Certs → Certs) : (s.modCerts f).ledger = s.ledger := rfl
@[simp] theorem State.modCerts_bays (s : State) (f : Certs → Certs) : (s.modCerts f).bays = s.bays := rfl
@[simp] theorem State.modCerts_girders (s : State) (f : Certs → Certs) : (s.modCerts f).girders = s.girders := rfl
@[simp] theorem State.modCerts_ras (s : State) (f : Certs → Certs) : (s.modCerts f).ras = s.ras := rfl
@[simp] theorem State.modCerts_vref (s : State) (f : Certs → Certs) : (s.modCerts f).vref = s.vref := rfl
@[simp] theorem State.modCerts_baseHist (s : State) (f : Certs → Certs) : (s.modCerts f).baseHist = s.baseHist := rfl
@[simp] theorem State.modCerts_refreshFail (s : State) (f : Certs → Certs) : (s.modCerts f).refreshFail = s.refreshFail := rfl
@[simp] theorem State.modCerts_refreshRetry (s : State) (f : Certs → Certs) : (s.modCerts f).refreshRetry = s.refreshRetry := rfl
@[simp] theorem State.modCerts_hbmFixed (s : State) (f : Certs → Certs) : (s.modCerts f).hbmFixed = s.hbmFixed := rfl
@[simp] theorem State.modCerts_refreshAt (s : State) (f : Certs → Certs) : (s.modCerts f).refreshAt = s.refreshAt := rfl
@[simp] theorem State.modCerts_taint (s : State) (f : Certs → Certs) : (s.modCerts f).taint = s.taint := rfl
@[simp] theorem State.modCerts_ports (s : State) (f : Certs → Certs) : (s.modCerts f).ports = s.ports := rfl
@[simp] theorem State.modCerts_tenants (s : State) (f : Certs → Certs) : (s.modCerts f).tenants = s.tenants := rfl
@[simp] theorem State.modCerts_spandrels (s : State) (f : Certs → Certs) : (s.modCerts f).spandrels = s.spandrels := rfl
@[simp] theorem State.modCerts_cwys (s : State) (f : Certs → Certs) : (s.modCerts f).cwys = s.cwys := rfl
@[simp] theorem State.modCerts_reqs (s : State) (f : Certs → Certs) : (s.modCerts f).reqs = s.reqs := rfl
@[simp] theorem State.modCerts_nOrders (s : State) (f : Certs → Certs) : (s.modCerts f).nOrders = s.nOrders := rfl
@[simp] theorem State.modCerts_certs (s : State) (f : Certs → Certs) : (s.modCerts f).certs = f s.certs := rfl
@[simp] theorem State.modCerts_draws (s : State) (f : Certs → Certs) : (s.modCerts f).draws = s.draws := rfl
@[simp] theorem State.modCerts_hbm (s : State) (f : Certs → Certs) : (s.modCerts f).hbm = s.hbm := rfl
@[simp] theorem State.modCerts_deck (s : State) (f : Certs → Certs) : (s.modCerts f).deck = s.deck := rfl
@[simp] theorem State.modCerts_sram (s : State) (f : Certs → Certs) : (s.modCerts f).sram = s.sram := rfl
@[simp] theorem State.modCerts_pending (s : State) (f : Certs → Certs) : (s.modCerts f).pending = s.pending := rfl
@[simp] theorem State.modCerts_out (s : State) (f : Certs → Certs) : (s.modCerts f).out = s.out := rfl

/-! ### setWord -/

@[simp] theorem State.setWord_pw (s : State) (off v : Nat) : (s.setWord off v).pw = s.pw := rfl
@[simp] theorem State.setWord_en (s : State) (off v : Nat) : (s.setWord off v).en = s.en := rfl
@[simp] theorem State.setWord_thm (s : State) (off v : Nat) : (s.setWord off v).thm = s.thm := rfl
@[simp] theorem State.setWord_host (s : State) (off v : Nat) : (s.setWord off v).host = s.host := rfl
@[simp] theorem State.setWord_mgt (s : State) (off v : Nat) : (s.setWord off v).mgt = s.mgt := rfl
@[simp] theorem State.setWord_chain (s : State) (off v : Nat) : (s.setWord off v).chain = s.chain := rfl
@[simp] theorem State.setWord_nv (s : State) (off v : Nat) : (s.setWord off v).nv = s.nv := rfl
@[simp] theorem State.setWord_ledger (s : State) (off v : Nat) : (s.setWord off v).ledger = s.ledger := rfl
@[simp] theorem State.setWord_bays (s : State) (off v : Nat) : (s.setWord off v).bays = s.bays := rfl
@[simp] theorem State.setWord_girders (s : State) (off v : Nat) : (s.setWord off v).girders = s.girders := rfl
@[simp] theorem State.setWord_ras (s : State) (off v : Nat) : (s.setWord off v).ras = s.ras := rfl
@[simp] theorem State.setWord_vref (s : State) (off v : Nat) : (s.setWord off v).vref = s.vref := rfl
@[simp] theorem State.setWord_baseHist (s : State) (off v : Nat) : (s.setWord off v).baseHist = s.baseHist := rfl
@[simp] theorem State.setWord_refreshFail (s : State) (off v : Nat) : (s.setWord off v).refreshFail = s.refreshFail := rfl
@[simp] theorem State.setWord_refreshRetry (s : State) (off v : Nat) : (s.setWord off v).refreshRetry = s.refreshRetry := rfl
@[simp] theorem State.setWord_hbmFixed (s : State) (off v : Nat) : (s.setWord off v).hbmFixed = s.hbmFixed := rfl
@[simp] theorem State.setWord_refreshAt (s : State) (off v : Nat) : (s.setWord off v).refreshAt = s.refreshAt := rfl
@[simp] theorem State.setWord_taint (s : State) (off v : Nat) : (s.setWord off v).taint = s.taint := rfl
@[simp] theorem State.setWord_ports (s : State) (off v : Nat) : (s.setWord off v).ports = s.ports := rfl
@[simp] theorem State.setWord_tenants (s : State) (off v : Nat) : (s.setWord off v).tenants = s.tenants := rfl
@[simp] theorem State.setWord_spandrels (s : State) (off v : Nat) : (s.setWord off v).spandrels = s.spandrels := rfl
@[simp] theorem State.setWord_cwys (s : State) (off v : Nat) : (s.setWord off v).cwys = s.cwys := rfl
@[simp] theorem State.setWord_reqs (s : State) (off v : Nat) : (s.setWord off v).reqs = s.reqs := rfl
@[simp] theorem State.setWord_nOrders (s : State) (off v : Nat) : (s.setWord off v).nOrders = s.nOrders := rfl
@[simp] theorem State.setWord_certs (s : State) (off v : Nat) : (s.setWord off v).certs = s.certs := rfl
@[simp] theorem State.setWord_draws (s : State) (off v : Nat) : (s.setWord off v).draws = s.draws := rfl
@[simp] theorem State.setWord_hbm (s : State) (off v : Nat) : (s.setWord off v).hbm = s.hbm := rfl
@[simp] theorem State.setWord_deck (s : State) (off v : Nat) : (s.setWord off v).deck = s.deck := rfl
@[simp] theorem State.setWord_sram (s : State) (off v : Nat) : (s.setWord off v).sram = s.sram := rfl
@[simp] theorem State.setWord_pending (s : State) (off v : Nat) : (s.setWord off v).pending = s.pending := rfl
@[simp] theorem State.setWord_out (s : State) (off v : Nat) : (s.setWord off v).out = s.out := rfl

/-! ### emit and the fixed parts of every command -/

@[simp] theorem emit_pw (o : Output) (s : State) : (emit o s).pw = s.pw := rfl
@[simp] theorem emit_en (o : Output) (s : State) : (emit o s).en = s.en := rfl
@[simp] theorem emit_thm (o : Output) (s : State) : (emit o s).thm = s.thm := rfl
@[simp] theorem emit_words (o : Output) (s : State) : (emit o s).words = s.words := rfl
@[simp] theorem emit_host (o : Output) (s : State) : (emit o s).host = s.host := rfl
@[simp] theorem emit_mgt (o : Output) (s : State) : (emit o s).mgt = s.mgt := rfl
@[simp] theorem emit_chain (o : Output) (s : State) : (emit o s).chain = s.chain := rfl
@[simp] theorem emit_nv (o : Output) (s : State) : (emit o s).nv = s.nv := rfl
@[simp] theorem emit_ledger (o : Output) (s : State) : (emit o s).ledger = s.ledger := rfl
@[simp] theorem emit_bays (o : Output) (s : State) : (emit o s).bays = s.bays := rfl
@[simp] theorem emit_girders (o : Output) (s : State) : (emit o s).girders = s.girders := rfl
@[simp] theorem emit_ras (o : Output) (s : State) : (emit o s).ras = s.ras := rfl
@[simp] theorem emit_vref (o : Output) (s : State) : (emit o s).vref = s.vref := rfl
@[simp] theorem emit_baseHist (o : Output) (s : State) : (emit o s).baseHist = s.baseHist := rfl
@[simp] theorem emit_refreshFail (o : Output) (s : State) : (emit o s).refreshFail = s.refreshFail := rfl
@[simp] theorem emit_refreshRetry (o : Output) (s : State) : (emit o s).refreshRetry = s.refreshRetry := rfl
@[simp] theorem emit_hbmFixed (o : Output) (s : State) : (emit o s).hbmFixed = s.hbmFixed := rfl
@[simp] theorem emit_refreshAt (o : Output) (s : State) : (emit o s).refreshAt = s.refreshAt := rfl
@[simp] theorem emit_taint (o : Output) (s : State) : (emit o s).taint = s.taint := rfl
@[simp] theorem emit_ports (o : Output) (s : State) : (emit o s).ports = s.ports := rfl
@[simp] theorem emit_tenants (o : Output) (s : State) : (emit o s).tenants = s.tenants := rfl
@[simp] theorem emit_spandrels (o : Output) (s : State) : (emit o s).spandrels = s.spandrels := rfl
@[simp] theorem emit_cwys (o : Output) (s : State) : (emit o s).cwys = s.cwys := rfl
@[simp] theorem emit_reqs (o : Output) (s : State) : (emit o s).reqs = s.reqs := rfl
@[simp] theorem emit_nOrders (o : Output) (s : State) : (emit o s).nOrders = s.nOrders := rfl
@[simp] theorem emit_certs (o : Output) (s : State) : (emit o s).certs = s.certs := rfl
@[simp] theorem emit_draws (o : Output) (s : State) : (emit o s).draws = s.draws := rfl
@[simp] theorem emit_hbm (o : Output) (s : State) : (emit o s).hbm = s.hbm := rfl
@[simp] theorem emit_deck (o : Output) (s : State) : (emit o s).deck = s.deck := rfl
@[simp] theorem emit_sram (o : Output) (s : State) : (emit o s).sram = s.sram := rfl
@[simp] theorem emit_pending (o : Output) (s : State) : (emit o s).pending = s.pending := rfl
@[simp] theorem emit_out (o : Output) (s : State) : (emit o s).out = o :: s.out := rfl

@[simp] theorem keepFixed_pw (s t : State) : (keepFixed s t).pw = t.pw := rfl
@[simp] theorem keepFixed_en (s t : State) : (keepFixed s t).en = t.en := rfl
@[simp] theorem keepFixed_thm (s t : State) : (keepFixed s t).thm = t.thm := rfl
@[simp] theorem keepFixed_words (s t : State) : (keepFixed s t).words = t.words := rfl
@[simp] theorem keepFixed_mgt (s t : State) : (keepFixed s t).mgt = t.mgt := rfl
@[simp] theorem keepFixed_chain (s t : State) : (keepFixed s t).chain = t.chain := rfl
@[simp] theorem keepFixed_nv (s t : State) : (keepFixed s t).nv = t.nv := rfl
@[simp] theorem keepFixed_ledger (s t : State) : (keepFixed s t).ledger = t.ledger := rfl
@[simp] theorem keepFixed_bays (s t : State) : (keepFixed s t).bays = t.bays := rfl
@[simp] theorem keepFixed_girders (s t : State) : (keepFixed s t).girders = t.girders := rfl
@[simp] theorem keepFixed_ras (s t : State) : (keepFixed s t).ras = t.ras := rfl
@[simp] theorem keepFixed_vref (s t : State) : (keepFixed s t).vref = t.vref := rfl
@[simp] theorem keepFixed_baseHist (s t : State) : (keepFixed s t).baseHist = t.baseHist := rfl
@[simp] theorem keepFixed_refreshFail (s t : State) : (keepFixed s t).refreshFail = t.refreshFail := rfl
@[simp] theorem keepFixed_refreshRetry (s t : State) : (keepFixed s t).refreshRetry = t.refreshRetry := rfl
@[simp] theorem keepFixed_hbmFixed (s t : State) : (keepFixed s t).hbmFixed = t.hbmFixed := rfl
@[simp] theorem keepFixed_refreshAt (s t : State) : (keepFixed s t).refreshAt = t.refreshAt := rfl
@[simp] theorem keepFixed_taint (s t : State) : (keepFixed s t).taint = t.taint := rfl
@[simp] theorem keepFixed_ports (s t : State) : (keepFixed s t).ports = t.ports := rfl
@[simp] theorem keepFixed_tenants (s t : State) : (keepFixed s t).tenants = t.tenants := rfl
@[simp] theorem keepFixed_spandrels (s t : State) : (keepFixed s t).spandrels = t.spandrels := rfl
@[simp] theorem keepFixed_cwys (s t : State) : (keepFixed s t).cwys = t.cwys := rfl
@[simp] theorem keepFixed_reqs (s t : State) : (keepFixed s t).reqs = t.reqs := rfl
@[simp] theorem keepFixed_nOrders (s t : State) : (keepFixed s t).nOrders = t.nOrders := rfl
@[simp] theorem keepFixed_certs (s t : State) : (keepFixed s t).certs = t.certs := rfl
@[simp] theorem keepFixed_draws (s t : State) : (keepFixed s t).draws = t.draws := rfl
@[simp] theorem keepFixed_hbm (s t : State) : (keepFixed s t).hbm = t.hbm := rfl
@[simp] theorem keepFixed_deck (s t : State) : (keepFixed s t).deck = t.deck := rfl
@[simp] theorem keepFixed_sram (s t : State) : (keepFixed s t).sram = t.sram := rfl
@[simp] theorem keepFixed_pending (s t : State) : (keepFixed s t).pending = s.pending := rfl
@[simp] theorem keepFixed_out (s t : State) : (keepFixed s t).out = t.out := rfl
@[simp] theorem keepFixed_host (s t : State) : (keepFixed s t).host = { t.host with perst := s.host.perst } := rfl

@[simp] theorem keepNv_pw (s t : State) : (keepNv s t).pw = t.pw := rfl
@[simp] theorem keepNv_en (s t : State) : (keepNv s t).en = t.en := rfl
@[simp] theorem keepNv_thm (s t : State) : (keepNv s t).thm = t.thm := rfl
@[simp] theorem keepNv_words (s t : State) : (keepNv s t).words = t.words := rfl
@[simp] theorem keepNv_mgt (s t : State) : (keepNv s t).mgt = t.mgt := rfl
@[simp] theorem keepNv_chain (s t : State) : (keepNv s t).chain = t.chain := rfl
@[simp] theorem keepNv_nv (s t : State) : (keepNv s t).nv = s.nv := rfl
@[simp] theorem keepNv_ledger (s t : State) : (keepNv s t).ledger = t.ledger := rfl
@[simp] theorem keepNv_bays (s t : State) : (keepNv s t).bays = t.bays := rfl
@[simp] theorem keepNv_girders (s t : State) : (keepNv s t).girders = t.girders := rfl
@[simp] theorem keepNv_ras (s t : State) : (keepNv s t).ras = t.ras := rfl
@[simp] theorem keepNv_vref (s t : State) : (keepNv s t).vref = t.vref := rfl
@[simp] theorem keepNv_baseHist (s t : State) : (keepNv s t).baseHist = t.baseHist := rfl
@[simp] theorem keepNv_refreshFail (s t : State) : (keepNv s t).refreshFail = t.refreshFail := rfl
@[simp] theorem keepNv_refreshRetry (s t : State) : (keepNv s t).refreshRetry = t.refreshRetry := rfl
@[simp] theorem keepNv_hbmFixed (s t : State) : (keepNv s t).hbmFixed = t.hbmFixed := rfl
@[simp] theorem keepNv_refreshAt (s t : State) : (keepNv s t).refreshAt = t.refreshAt := rfl
@[simp] theorem keepNv_taint (s t : State) : (keepNv s t).taint = t.taint := rfl
@[simp] theorem keepNv_ports (s t : State) : (keepNv s t).ports = t.ports := rfl
@[simp] theorem keepNv_tenants (s t : State) : (keepNv s t).tenants = t.tenants := rfl
@[simp] theorem keepNv_spandrels (s t : State) : (keepNv s t).spandrels = t.spandrels := rfl
@[simp] theorem keepNv_cwys (s t : State) : (keepNv s t).cwys = t.cwys := rfl
@[simp] theorem keepNv_reqs (s t : State) : (keepNv s t).reqs = t.reqs := rfl
@[simp] theorem keepNv_nOrders (s t : State) : (keepNv s t).nOrders = t.nOrders := rfl
@[simp] theorem keepNv_certs (s t : State) : (keepNv s t).certs = t.certs := rfl
@[simp] theorem keepNv_draws (s t : State) : (keepNv s t).draws = t.draws := rfl
@[simp] theorem keepNv_hbm (s t : State) : (keepNv s t).hbm = t.hbm := rfl
@[simp] theorem keepNv_deck (s t : State) : (keepNv s t).deck = t.deck := rfl
@[simp] theorem keepNv_sram (s t : State) : (keepNv s t).sram = t.sram := rfl
@[simp] theorem keepNv_pending (s t : State) : (keepNv s t).pending = s.pending := rfl
@[simp] theorem keepNv_out (s t : State) : (keepNv s t).out = t.out := rfl
@[simp] theorem keepNv_host (s t : State) : (keepNv s t).host = { t.host with perst := s.host.perst } := rfl

@[simp] theorem keepMem_pw (s t : State) : (keepMem s t).pw = t.pw := rfl
@[simp] theorem keepMem_en (s t : State) : (keepMem s t).en = t.en := rfl
@[simp] theorem keepMem_thm (s t : State) : (keepMem s t).thm = t.thm := rfl
@[simp] theorem keepMem_words (s t : State) : (keepMem s t).words = t.words := rfl
@[simp] theorem keepMem_mgt (s t : State) : (keepMem s t).mgt = t.mgt := rfl
@[simp] theorem keepMem_chain (s t : State) : (keepMem s t).chain = t.chain := rfl
@[simp] theorem keepMem_nv (s t : State) : (keepMem s t).nv = t.nv := rfl
@[simp] theorem keepMem_ledger (s t : State) : (keepMem s t).ledger = t.ledger := rfl
@[simp] theorem keepMem_bays (s t : State) : (keepMem s t).bays = t.bays := rfl
@[simp] theorem keepMem_girders (s t : State) : (keepMem s t).girders = t.girders := rfl
@[simp] theorem keepMem_ras (s t : State) : (keepMem s t).ras = t.ras := rfl
@[simp] theorem keepMem_vref (s t : State) : (keepMem s t).vref = t.vref := rfl
@[simp] theorem keepMem_baseHist (s t : State) : (keepMem s t).baseHist = t.baseHist := rfl
@[simp] theorem keepMem_refreshFail (s t : State) : (keepMem s t).refreshFail = t.refreshFail := rfl
@[simp] theorem keepMem_refreshRetry (s t : State) : (keepMem s t).refreshRetry = t.refreshRetry := rfl
@[simp] theorem keepMem_hbmFixed (s t : State) : (keepMem s t).hbmFixed = t.hbmFixed := rfl
@[simp] theorem keepMem_refreshAt (s t : State) : (keepMem s t).refreshAt = t.refreshAt := rfl
@[simp] theorem keepMem_taint (s t : State) : (keepMem s t).taint = t.taint := rfl
@[simp] theorem keepMem_ports (s t : State) : (keepMem s t).ports = t.ports := rfl
@[simp] theorem keepMem_tenants (s t : State) : (keepMem s t).tenants = t.tenants := rfl
@[simp] theorem keepMem_spandrels (s t : State) : (keepMem s t).spandrels = t.spandrels := rfl
@[simp] theorem keepMem_cwys (s t : State) : (keepMem s t).cwys = t.cwys := rfl
@[simp] theorem keepMem_reqs (s t : State) : (keepMem s t).reqs = t.reqs := rfl
@[simp] theorem keepMem_nOrders (s t : State) : (keepMem s t).nOrders = t.nOrders := rfl
@[simp] theorem keepMem_certs (s t : State) : (keepMem s t).certs = t.certs := rfl
@[simp] theorem keepMem_draws (s t : State) : (keepMem s t).draws = t.draws := rfl
@[simp] theorem keepMem_hbm (s t : State) : (keepMem s t).hbm = s.hbm := rfl
@[simp] theorem keepMem_deck (s t : State) : (keepMem s t).deck = s.deck := rfl
@[simp] theorem keepMem_sram (s t : State) : (keepMem s t).sram = s.sram := rfl
@[simp] theorem keepMem_pending (s t : State) : (keepMem s t).pending = s.pending := rfl
@[simp] theorem keepMem_out (s t : State) : (keepMem s t).out = t.out := rfl
@[simp] theorem keepMem_host (s t : State) : (keepMem s t).host = { t.host with perst := s.host.perst } := rfl

@[simp] theorem keepFixed_self (s : State) : keepFixed s s = s := rfl
@[simp] theorem keepNv_self (s : State) : keepNv s s = s := rfl
@[simp] theorem keepMem_self (s : State) : keepMem s s = s := rfl

end Sys2Proof.Machine
end

