-- ==== Sys2Proof/Laws/Crypto.lean ====
section
/-! SUPPORT. The laws of the cryptographic functions: lengths, and that opening what was sealed gives it back. -/

namespace Sys2Proof.Machine

theorem slice_length (bs : Bytes) (o n : Nat) : (slice bs o n).length = n := by
  simp only [slice, List.length_append, List.length_replicate, List.length_take]
  omega

theorem shake_length (n : Nat) (bs : Bytes) : (shake n bs).length = n := by unfold shake keccak; exact slice_length _ _ _

theorem sha3_length (bs : Bytes) : (sha3 bs).length = 64 := by unfold sha3 keccak; exact slice_length _ _ _

theorem xor_back : ∀ (bs : Bytes) (ks : List Nat), bs.length ≤ ks.length →
    (((bs.zip ks).map (fun e => e.1 ^^^ BitVec.ofNat 8 e.2)).zip ks).map (fun e => e.1 ^^^ BitVec.ofNat 8 e.2) = bs
  | [], _, _ => by simp
  | b :: r, [], h => by simp at h
  | b :: r, k :: ks, h => by
    have h : r.length ≤ ks.length := by simpa using h
    simp [BitVec.xor_assoc, xor_back r ks h]

theorem aesShift_length (a : List Nat) : (aesShift a).length = 16 := by simp [aesShift]

theorem gcmCrypt_length (ks : List (List Nat)) (iv : Bytes) (hk : ∀ b, 16 ≤ (aesBlock ks b).length) :
    ∀ (n c : Nat) (bs : Bytes), bs.length ≤ 16 * n → (gcmCrypt ks iv n c bs).length = bs.length
  | 0, _, bs, h => by
    have : bs = [] := List.eq_nil_of_length_eq_zero (by omega)
    simp [gcmCrypt, this]
  | n + 1, c, bs, h => by
    have := gcmCrypt_length ks iv hk n (c + 1) (bs.drop 16) (by simp; omega)
    have := hk (gcmCounter iv c)
    simp only [gcmCrypt, List.length_append, List.length_map, List.length_zip, List.length_take, *, List.length_drop]
    omega

/-- Adding the key stream twice gives the data back. -/
theorem gcmCrypt_back (ks : List (List Nat)) (iv : Bytes) (hk : ∀ b, 16 ≤ (aesBlock ks b).length) :
    ∀ (n c : Nat) (bs : Bytes), bs.length ≤ 16 * n → gcmCrypt ks iv n c (gcmCrypt ks iv n c bs) = bs
  | 0, _, bs, h => by
    have : bs = [] := List.eq_nil_of_length_eq_zero (by omega)
    simp [gcmCrypt, this]
  | n + 1, c, bs, h => by
    have hb := hk (gcmCounter iv c)
    have ih := gcmCrypt_back ks iv hk n (c + 1) (bs.drop 16) (by simp; omega)
    have hx := xor_back (bs.take 16) (aesBlock ks (gcmCounter iv c)) (by simp; omega)
    have hl : (((bs.take 16).zip (aesBlock ks (gcmCounter iv c))).map (fun e => e.1 ^^^ BitVec.ofNat 8 e.2)).length = min 16 bs.length := by
      simp; omega
    by_cases h16 : 16 ≤ bs.length
    · have hl' : (((bs.take 16).zip (aesBlock ks (gcmCounter iv c))).map (fun e => e.1 ^^^ BitVec.ofNat 8 e.2)).length = 16 := by omega
      simp only [gcmCrypt]
      rw [List.take_left' hl', List.drop_left' hl', hx, ih, List.take_append_drop]
    · have hd : bs.drop 16 = [] := List.drop_eq_nil_of_le (by omega)
      have hz : gcmCrypt ks iv n (c + 1) [] = [] :=
        List.eq_nil_of_length_eq_zero (by rw [gcmCrypt_length ks iv hk n (c + 1) [] (by simp)]; rfl)
      simp only [gcmCrypt, hd, hz, List.append_nil]
      rw [List.take_of_length_le (by omega), hx, List.drop_eq_nil_of_le (by omega), hz, List.append_nil, List.take_of_length_le (by omega)]

theorem getD_mem {α : Type} (l : List α) (i : Nat) (d : α) (h : i < l.length) : l.getD i d ∈ l := by
  rw [List.getD_eq_getElem?_getD, List.getElem?_eq_getElem h]
  exact List.getElem_mem h

theorem aesExpand_length (k : Nat) (key : List Nat) : (aesExpand k key).length = k + 8 := by
  induction k with
  | zero => rfl
  | succ k ih => simp only [aesExpand, List.length_cons, ih, Nat.add_right_comm]

/-- Every word of the expanded key has four bytes. -/
theorem aesExpand_words (key : List Nat) : ∀ k, ∀ w ∈ aesExpand k key, w.length = 4
  | 0, w, h => by
    simp only [aesExpand, List.mem_reverse, List.mem_map] at h
    obtain ⟨i, -, rfl⟩ := h
    simp
  | k + 1, w, h => by
    have ih := aesExpand_words key k
    have hl := aesExpand_length k key
    simp only [aesExpand, List.mem_cons] at h
    rcases h with rfl | h
    · have h0 : ((aesExpand k key).getD 0 []).length = 4 := ih _ (getD_mem _ _ _ (by omega))
      have h7 : ((aesExpand k key).getD 7 []).length = 4 := ih _ (getD_mem _ _ _ (by omega))
      simp only [aesNextWord, List.length_map, List.length_zip, h7]
      split
      · simp
      · split <;> simp [-List.getD_eq_getElem?_getD, h0]
    · exact ih w h

theorem roundKey_length (ws : List (List Nat)) (hl : ws.length = 60) (hw : ∀ w ∈ ws, w.length = 4) :
    (((List.range 15).map (fun r => (List.range 4).flatMap (fun i => ws.getD (4 * r + i) []))).getD 14 []).length = 16 := by
  have hg : ∀ i, i < 60 → (ws.getD i []).length = 4 := fun i hi => hw _ (getD_mem _ _ _ (by omega))
  rw [List.getD_eq_getElem?_getD, List.getElem?_map, List.getElem?_range (by omega)]
  simp only [Option.map_some, Option.getD_some, List.length_flatMap]
  simp [-List.getD_eq_getElem?_getD, List.range_succ, hg]

theorem aesKeys_last (key : Bytes) : ((aesKeys key).getD 14 []).length = 16 := by
  unfold aesKeys
  exact roundKey_length _ (by simp [aesExpand_length]) (fun w h => aesExpand_words _ 52 w (List.mem_reverse.mp h))

theorem aesBlock_length (key : Bytes) (b : List Nat) : (aesBlock (aesKeys key) b).length = 16 := by
  simp only [aesBlock, aesAdd, List.length_map, List.length_zip, aesShift_length, aesKeys_last, Nat.min_self]

theorem gcmTag_length (ks : List (List Nat)) (iv aad ct : Bytes) : (gcmTag ks iv aad ct).length = 16 := by simp [gcmTag, beBytes]

/-- Opening what was sealed, under its tag, gives the data back. -/
theorem gcmOpen_gcmSeal (key iv aad pt : Bytes) :
    gcmOpen key iv aad (gcmSeal key iv aad pt).1 (gcmSeal key iv aad pt).2 = some pt := by
  have hk : ∀ b, 16 ≤ (aesBlock (aesKeys key) b).length := fun b => Nat.le_of_eq (aesBlock_length key b).symm
  have hn : pt.length ≤ 16 * ceilDiv pt.length 16 := by unfold ceilDiv; omega
  unfold gcmOpen gcmSeal
  simp only [gcmTag_length, gcmCrypt_length _ _ hk _ _ _ hn, gcmCrypt_back _ _ hk _ _ _ hn]
  rw [if_pos (List.take_of_length_le (Nat.le_of_eq (gcmTag_length _ _ _ _)))]

end Sys2Proof.Machine
end

