-- ==== Sys2Proof/Laws/Ops.lean ====
section
/-! SUPPORT. Tables, the three forms of a command, and the shared operations of the host side: what each can do,
said once. -/

namespace Sys2Proof.Machine

/-! ### The CRC-32C -/

/-- One bit leaves the CRC-32C register within 32 bits. -/
theorem crcBit_lt {c : Nat} (h : c < 2 ^ 32) : crcBit c < 2 ^ 32 := by
  unfold crcBit
  split
  · exact Nat.xor_lt_two_pow (by omega) (by decide)
  · omega

/-- One byte leaves the CRC-32C register within 32 bits. -/
theorem crcByte_lt {c : Nat} (b : Byte) (h : c < 2 ^ 32) : crcByte c b < 2 ^ 32 :=
  crcBit_lt (crcBit_lt (crcBit_lt (crcBit_lt (crcBit_lt (crcBit_lt (crcBit_lt (crcBit_lt
    (Nat.xor_lt_two_pow h (Nat.lt_of_lt_of_le b.isLt (by decide))))))))))

/-- A CRC-32C has 32 bits. -/
theorem crc32c_lt (bs : Bytes) : crc32c bs < 2 ^ 32 := by
  have h : ∀ (bs : Bytes) (c : Nat), c < 2 ^ 32 → bs.foldl crcByte c < 2 ^ 32 := by
    intro bs
    induction bs with
    | nil => exact fun _ h => h
    | cons b bs ih => exact fun c h => ih _ (crcByte_lt b h)
  exact Nat.xor_lt_two_pow (h bs _ (by decide)) (by decide)
/-! ### Tables -/

/-- A number reads what was set under it. -/
@[simp] theorem tget_tset_same {α : Type} (t : Tab α) (k : Nat) (v : α) : tget (tset t k v) k = some v := by
  induction t with
  | nil => simp [tset, tget]
  | cons e r ih =>
    obtain ⟨j, w⟩ := e
    simp only [tset]
    split
    · simp [tget]
    · split
      · simp [tget]
      · rename_i h; simp [tget, h, ih]

/-- Another number reads as before. -/
theorem tget_tset_other {α : Type} (t : Tab α) {k j : Nat} (v : α) (h : j ≠ k) : tget (tset t k v) j = tget t j := by
  induction t with
  | nil => simp [tset, tget, Ne.symm h]
  | cons e r ih =>
    obtain ⟨i, w⟩ := e
    simp only [tset]
    split
    · simp [tget, Ne.symm h]
    · split
      · rename_i hi; subst hi; simp [tget, Ne.symm h]
      · by_cases hj : i = j <;> simp [tget, hj, ih]

@[simp] theorem tgetD_tset_same {α : Type} (t : Tab α) (k : Nat) (v d : α) : tgetD (tset t k v) k d = v := by
  simp [tgetD]

theorem tgetD_tset_other {α : Type} (t : Tab α) {k j : Nat} (v d : α) (h : j ≠ k) :
    tgetD (tset t k v) j d = tgetD t j d := by simp [tgetD, tget_tset_other t v h]

@[simp] theorem tgetD_tmod_same {α : Type} (t : Tab α) (k : Nat) (d : α) (f : α → α) :
    tgetD (tmod t k d f) k d = f (tgetD t k d) := by simp [tmod]

theorem tgetD_tmod_other {α : Type} (t : Tab α) {k j : Nat} (d : α) (f : α → α) (h : j ≠ k) :
    tgetD (tmod t k d f) j d = tgetD t j d := tgetD_tset_other t _ d h

@[simp] theorem tgetD_nil {α : Type} (k : Nat) (d : α) : tgetD ([] : Tab α) k d = d := rfl

/-! ### Units changed and units left alone -/

@[simp] theorem State.modCwy_cwy (s : State) (c : Nat) (f : Cwy → Cwy) : (s.modCwy c f).cwy c = f (s.cwy c) := by
  simp [State.modCwy, State.cwy]
theorem State.modCwy_cwy_other (s : State) {c d : Nat} (f : Cwy → Cwy) (h : d ≠ c) : (s.modCwy c f).cwy d = s.cwy d :=
  tgetD_tmod_other s.cwys {} f h
@[simp] theorem State.modLife_life (s : State) (c : Nat) (f : Life → Life) : ((s.modLife c f).cwy c).life = f (s.cwy c).life := by
  simp [State.modLife]
@[simp] theorem State.modRun_run (s : State) (c : Nat) (f : Run → Run) : ((s.modRun c f).cwy c).run = f (s.cwy c).run := by
  simp [State.modRun]
@[simp] theorem State.modKey_key (s : State) (c : Nat) (f : Key → Key) : ((s.modKey c f).cwy c).key = f (s.cwy c).key := by
  simp [State.modKey]
@[simp] theorem State.modKv_kv (s : State) (c : Nat) (f : Kv → Kv) : ((s.modKv c f).cwy c).kv = f (s.cwy c).kv := by
  simp [State.modKv]
@[simp] theorem State.modW_w (s : State) (c : Nat) (f : Weights → Weights) : ((s.modW c f).cwy c).w = f (s.cwy c).w := by
  simp [State.modW]
@[simp] theorem State.modJk_jk (s : State) (c : Nat) (f : JobKey → JobKey) : ((s.modJk c f).cwy c).jk = f (s.cwy c).jk := by
  simp [State.modJk]
@[simp] theorem State.modBay_bay (s : State) (b : Nat) (f : Bay → Bay) : (s.modBay b f).bay b = f (s.bay b) := by
  simp [State.modBay, State.bay]
theorem State.modBay_bay_other (s : State) {b d : Nat} (f : Bay → Bay) (h : d ≠ b) : (s.modBay b f).bay d = s.bay d :=
  tgetD_tmod_other s.bays {} f h
@[simp] theorem State.modPier_pier (s : State) (b p : Nat) (f : Pier → Pier) : (s.modPier b p f).pier b p = f (s.pier b p) := by
  simp [State.modPier, State.pier, Bay.pier]
theorem State.modPier_pier_other (s : State) (b : Nat) {p q : Nat} (f : Pier → Pier) (h : q ≠ p) :
    (s.modPier b p f).pier b q = s.pier b q := by
  simp only [State.modPier, State.pier, Bay.pier, State.modBay_bay]
  exact tgetD_tmod_other _ {} f h
@[simp] theorem State.modGirder_girder (s : State) (g : Nat) (f : Girder → Girder) :
    (s.modGirder g f).girder g = f (s.girder g) := by simp [State.modGirder, State.girder]
theorem State.modGirder_girder_other (s : State) {g d : Nat} (f : Girder → Girder) (h : d ≠ g) :
    (s.modGirder g f).girder d = s.girder d := tgetD_tmod_other s.girders {} f h
@[simp] theorem State.modPort_port (s : State) (p : Nat) (f : Port → Port) : (s.modPort p f).port p = f (s.port p) := by
  simp [State.modPort, State.port]
theorem State.modPort_port_other (s : State) {p q : Nat} (f : Port → Port) (h : q ≠ p) : (s.modPort p f).port q = s.port q :=
  tgetD_tmod_other s.ports {} f h
@[simp] theorem State.modTenant_tenant (s : State) (t : Nat) (f : Tenant → Tenant) :
    (s.modTenant t f).tenant t = f (s.tenant t) := by simp [State.modTenant, State.tenant]
theorem State.modTenant_tenant_other (s : State) {t u : Nat} (f : Tenant → Tenant) (h : u ≠ t) :
    (s.modTenant t f).tenant u = s.tenant u := tgetD_tmod_other s.tenants {} f h
@[simp] theorem State.modSp_sp (s : State) (n : Nat) (f : Spandrel → Spandrel) : (s.modSp n f).sp n = f (s.sp n) := by
  simp [State.modSp, State.sp]
@[simp] theorem State.modRing_ring (s : State) (r : Nat) (f : Ring → Ring) : (s.modRing r f).ring r = f (s.ring r) := by
  simp [State.modRing, State.ring]
theorem State.modRing_ring_other (s : State) {r q : Nat} (f : Ring → Ring) (h : q ≠ r) : (s.modRing r f).ring q = s.ring q :=
  tgetD_tmod_other s.host.rings {} f h
@[simp] theorem State.modEvt_evt (s : State) (f : EvtRing → EvtRing) : (s.modEvt f).host.evt = f s.host.evt := rfl
@[simp] theorem State.modRing_perst (s : State) (r : Nat) (f : Ring → Ring) : (s.modRing r f).host.perst = s.host.perst := rfl
@[simp] theorem State.modRing_evt (s : State) (r : Nat) (f : Ring → Ring) : (s.modRing r f).host.evt = s.host.evt := rfl
@[simp] theorem State.modEvt_rings (s : State) (f : EvtRing → EvtRing) : (s.modEvt f).host.rings = s.host.rings := rfl
@[simp] theorem State.setWord_word (s : State) (off v : Nat) : (s.setWord off v).word off = v % 2 ^ 64 := by
  simp [State.setWord, State.word]
theorem State.setWord_word_other (s : State) {off o : Nat} (v : Nat) (h : o ≠ off) : (s.setWord off v).word o = s.word o := by
  simp [State.setWord, State.word, tgetD_tset_other _ _ _ h]

/-! ### The forms of a command -/

/-- While PERST_N is asserted a command changes nothing (R395). -/
theorem go_perst {s : State} (h : s.host.perst = true) (f : State → State) : go s f = .next s := by simp [go, h]
theorem goMem_perst {s : State} (h : s.host.perst = true) (f : State → State) : goMem s f = .next s := by simp [goMem, h]
theorem goNv_perst {s : State} (h : s.host.perst = true) (f : State → State) : goNv s f = .next s := by simp [goNv, h]

theorem go_run {s : State} (h : s.host.perst = false) (f : State → State) : go s f = .next (keepNv s (keepMem s (f s))) := by
  simp [go, h]
theorem goMem_run {s : State} (h : s.host.perst = false) (f : State → State) : goMem s f = .next (keepNv s (f s)) := by
  simp [goMem, h]
theorem goNv_run {s : State} (h : s.host.perst = false) (f : State → State) : goNv s f = .next (keepMem s (f s)) := by
  simp [goNv, h]

/-- A command of the plain form leaves the queue, OTP, flash, PERST_N and every memory as they were. -/
theorem go_frame {s t : State} {f : State → State} (h : go s f = .next t) :
    t.pending = s.pending ∧ t.nv = s.nv ∧ t.host.perst = s.host.perst ∧ t.hbm = s.hbm ∧ t.deck = s.deck ∧ t.sram = s.sram := by
  simp only [go, Host.Outcome.next.injEq] at h
  split at h <;> subst h <;> simp

/-- A storing command leaves the queue, OTP, flash and PERST_N as they were. -/
theorem goMem_frame {s t : State} {f : State → State} (h : goMem s f = .next t) :
    t.pending = s.pending ∧ t.nv = s.nv ∧ t.host.perst = s.host.perst := by
  simp only [goMem, Host.Outcome.next.injEq] at h
  split at h <;> subst h <;> simp

/-- A burning command leaves the queue, PERST_N and every memory as they were. -/
theorem goNv_frame {s t : State} {f : State → State} (h : goNv s f = .next t) :
    t.pending = s.pending ∧ t.host.perst = s.host.perst ∧ t.hbm = s.hbm ∧ t.deck = s.deck ∧ t.sram = s.sram := by
  simp only [goNv, Host.Outcome.next.injEq] at h
  split at h <;> subst h <;> simp

/-! ### Towards the host -/

/-- MSI-X: a message, a pending bit already set, or a pending bit set (R384); none leaves after an orderly shutdown. -/
theorem raise_cases (v : Nat) (s : State) :
    (v ∈ s.host.unmasked ∧ s.pw.shutEnded = false ∧ raise v s = emit (.msix v) s) ∨
    (¬(v ∈ s.host.unmasked ∧ s.pw.shutEnded = false) ∧ v ∈ s.host.msixPending ∧ raise v s = s) ∨
    (¬(v ∈ s.host.unmasked ∧ s.pw.shutEnded = false) ∧ v ∉ s.host.msixPending ∧
      raise v s = s.modHost (fun h => { h with msixPending := v :: h.msixPending })) := by
  by_cases hu : v ∈ s.host.unmasked ∧ s.pw.shutEnded = false
  · exact .inl ⟨hu.1, hu.2, by simp [raise, hu]⟩
  · by_cases hp : v ∈ s.host.msixPending
    · exact .inr (.inl ⟨hu, hp, by simp [raise, hu, hp]⟩)
    · exact .inr (.inr ⟨hu, hp, by simp [raise, hu, hp]⟩)

/-- A change folded over a list keeps what each of its steps keeps. -/
theorem foldS_keeps {α β : Type} (g : State → β) (f : State → α → State) (hf : ∀ s a, g (f s a) = g s) (l : List α) (s : State) :
    g (foldS l f s) = g s := by
  induction l generalizing s with
  | nil => rfl
  | cons a r ih => exact (ih (f s a)).trans (hf s a)

/-- A property that each step of a fold keeps. -/
theorem foldS_inv {α : Type} (P : State → Prop) (f : State → α → State) (hf : ∀ s a, P s → P (f s a)) (l : List α) (s : State)
    (h : P s) : P (foldS l f s) := by
  induction l generalizing s with
  | nil => exact h
  | cons a r ih => exact ih (f s a) (hf s a h)

end Sys2Proof.Machine
end

