-- ==== Sys2Proof/Laws/Frames.lean ====
section
/-! SUPPORT. What the shared operations can touch, said once each: those towards the host touch only the host
interface and the output; those of a Carriageway's lifecycle touch only the parts listed in `LifeOnly`. -/

namespace Sys2Proof.Machine

/-- Only the host interface and the output differ. -/
def HostOnly (s t : State) : Prop := ∃ h o, t = { s with host := h, out := o }

/-- Only the host interface, the output, the running check, what a Carriageway and its requests hold, and the fault
events with the demands and Ledger records that they raise differ, and when Bays last met the temperature of an inspection. -/
def LifeOnly (s t : State) : Prop :=
  ∃ h o cw rq tn sp po ch ce ev dm wt lq ha, t = { s with
    host := h, out := o, cwys := cw, reqs := rq, tenants := tn, spandrels := sp, ports := po, chain := { s.chain with check := ch }, certs := ce
    ras := { s.ras with evts := ev, demands := dm, cfgOf := wt }, ledger := { s.ledger with queue := lq }, thm := { s.thm with hotAt := ha } }

theorem HostOnly.refl (s : State) : HostOnly s s := ⟨s.host, s.out, rfl⟩
theorem LifeOnly.refl (s : State) : LifeOnly s s := ⟨_, _, _, _, _, _, _, _, _, _, _, _, _, _, rfl⟩

theorem HostOnly.trans {s t u : State} (h : HostOnly s t) (k : HostOnly t u) : HostOnly s u := by
  obtain ⟨a, b, rfl⟩ := h; obtain ⟨c, d, rfl⟩ := k; exact ⟨c, d, rfl⟩

theorem LifeOnly.trans {s t u : State} (h : LifeOnly s t) (k : LifeOnly t u) : LifeOnly s u := by
  obtain ⟨_, _, _, _, _, _, _, _, _, _, _, _, _, _, rfl⟩ := h; obtain ⟨a, b, c, d, e, f, g, i, j, k, l, m, n, o, rfl⟩ := k
  exact ⟨a, b, c, d, e, f, g, i, j, k, l, m, n, o, rfl⟩

theorem HostOnly.life {s t : State} (h : HostOnly s t) : LifeOnly s t := by
  obtain ⟨a, b, rfl⟩ := h; exact ⟨a, b, _, _, _, _, _, _, _, _, _, _, _, _, rfl⟩

theorem foldS_hostOnly {α : Type} (f : State → α → State) (hf : ∀ s a, HostOnly s (f s a)) (l : List α) (s : State) :
    HostOnly s (foldS l f s) := by
  induction l generalizing s with
  | nil => exact .refl s
  | cons a r ih => exact (hf s a).trans (ih (f s a))

theorem foldS_lifeOnly {α : Type} (f : State → α → State) (hf : ∀ s a, LifeOnly s (f s a)) (l : List α) (s : State) :
    LifeOnly s (foldS l f s) := by
  induction l generalizing s with
  | nil => exact .refl s
  | cons a r ih => exact (hf s a).trans (ih (f s a))

theorem when_lifeOnly {f : State → State} {s : State} (b : Bool) (hf : LifeOnly s (f s)) : LifeOnly s (s.when b f) := by
  cases b
  · exact .refl s
  · exact hf

/-! ### Towards the host -/

theorem modHost_hostOnly (s : State) (f : HostIf → HostIf) : HostOnly s (s.modHost f) := ⟨_, _, rfl⟩
theorem modEvt_hostOnly (s : State) (f : EvtRing → EvtRing) : HostOnly s (s.modEvt f) := ⟨_, _, rfl⟩
theorem modRing_hostOnly (s : State) (r : Nat) (f : Ring → Ring) : HostOnly s (s.modRing r f) := ⟨_, _, rfl⟩
theorem emit_hostOnly (o : Output) (s : State) : HostOnly s (emit o s) := ⟨_, _, rfl⟩

theorem cacheAtc_hostOnly (p : Option Nat) (a n : Nat) (s : State) : HostOnly s (cacheAtc p a n s) := by
  rw [cacheAtc]
  split
  · exact foldS_hostOnly _ (fun s _ => (modHost_hostOnly s _).trans (emit_hostOnly _ _)) _ s
  · exact .refl s

theorem hostWrite_hostOnly (p : Option Nat) (a : Nat) (d : Bytes) (s : State) : HostOnly s (hostWrite p a d s) := by
  rw [hostWrite]
  split
  · exact .refl s
  · exact (cacheAtc_hostOnly p a d.length s).trans (emit_hostOnly _ _)

theorem hostReadAs_hostOnly (k : ReadKind) (p : Option Nat) (a n : Nat) (s : State) : HostOnly s (hostReadAs k p a n s) := by
  rw [hostReadAs]
  split
  · exact .refl s
  · exact (cacheAtc_hostOnly p a n s).trans (emit_hostOnly _ _)

theorem hostRead_hostOnly (p : Option Nat) (a n : Nat) (s : State) : HostOnly s (hostRead p a n s) :=
  hostReadAs_hostOnly .io p a n s

theorem raise_hostOnly (v : Nat) (s : State) : HostOnly s (raise v s) := by
  rcases raise_cases v s with ⟨_, _, h⟩ | ⟨_, _, h⟩ | ⟨_, _, h⟩ <;> rw [h]
  · exact emit_hostOnly _ s
  · exact .refl s
  · exact modHost_hostOnly s _

theorem raiseSpaced_hostOnly (v : Nat) (s : State) : HostOnly s (raiseSpaced v s) := by
  simp only [raiseSpaced]
  split
  · exact (modHost_hostOnly s _).trans (raise_hostOnly v _)
  · split
    · exact .refl s
    · exact modHost_hostOnly s _

theorem raiseDue_hostOnly (s : State) : HostOnly s (raiseDue s) :=
  (modHost_hostOnly s _).trans (foldS_hostOnly _ (fun s v => raiseSpaced_hostOnly v s) _ _)

theorem onceVectors_hostOnly (b s : State) : HostOnly s (onceVectors b s) := ⟨_, _, rfl⟩

theorem hbmSnoop_hostOnly (a n : Nat) (s : State) : HostOnly s (hbmSnoop a n s) := by
  simp only [hbmSnoop]
  split
  · exact .refl s
  · exact (modHost_hostOnly s _).trans (foldS_hostOnly _ (fun s l => emit_hostOnly _ s) _ _)

theorem evtWrite_hostOnly (r : Bytes) (s : State) : HostOnly s (evtWrite r s) :=
  (((hostWrite_hostOnly _ _ _ s).trans (modEvt_hostOnly _ _)).trans (hostWrite_hostOnly _ _ _ _)).trans (raise_hostOnly _ _)

theorem evtDrain_hostOnly (n : Nat) (s : State) : HostOnly s (evtDrain n s) := by
  induction n generalizing s with
  | zero => exact .refl s
  | succ k ih =>
    rw [evtDrain]
    dsimp only
    split
    · exact .refl s
    · split
      · split
        · split
          · exact (modEvt_hostOnly s _).trans (ih _)
          · exact .refl s
        · split
          · exact ((modEvt_hostOnly s _).trans (evtWrite_hostOnly _ _)).trans (ih _)
          · exact .refl s
        · split
          · exact (modEvt_hostOnly s _).trans (ih _)
          · split
            · exact ((modEvt_hostOnly s _).trans (evtWrite_hostOnly _ _)).trans (ih _)
            · exact .refl s
      · split
        · exact .refl s
        · split
          · exact ((modEvt_hostOnly s _).trans (evtWrite_hostOnly _ _)).trans (ih _)
          · exact .refl s

theorem evtAsk_hostOnly (s : State) : HostOnly s (evtAsk s) := by
  rw [evtAsk]
  split
  · exact hostReadAs_hostOnly _ _ _ _ s
  · exact .refl s

/-- Posting an event. -/
theorem post_hostOnly (code die : Nat) (d : Bytes) (s : State) : HostOnly s (post code die d s) := by
  rw [post]
  refine HostOnly.trans ?_ ((evtDrain_hostOnly 200 _).trans (evtAsk_hostOnly _))
  split
  · exact (modEvt_hostOnly s _).trans (modEvt_hostOnly _ _)
  · exact (modEvt_hostOnly s _).trans (modEvt_hostOnly _ _)

theorem statusLine_hostOnly (r : Nat) (s : State) : HostOnly s (statusLine r s) := hostWrite_hostOnly _ _ _ s

theorem cqWrite_hostOnly (r : Nat) (b : Bytes) (s : State) : HostOnly s (cqWrite r b s) :=
  (hostWrite_hostOnly _ _ _ s).trans (modRing_hostOnly _ _ _)

/-- Completing a descriptor. -/
theorem complete_hostOnly (r : Nat) (tag : Bytes) (i k st re fl a b : Nat) (s : State) :
    HostOnly s (complete r tag i k st re fl a b s) := by
  rw [complete]
  split
  · exact modRing_hostOnly s _ _
  · split
    · exact .refl s
    · exact cqWrite_hostOnly _ _ _

/-- Status lines and vectors at the end of a command. -/
theorem flushBy_hostOnly (send : Nat → State → State) (hs : ∀ v s, HostOnly s (send v s)) (b s : State) : HostOnly s (flushBy send b s) :=
  (foldS_hostOnly _ (fun s r => statusLine_hostOnly r s) _ _).trans (foldS_hostOnly _ (fun s v => hs v s) _ _)

theorem flush_hostOnly (b s : State) : HostOnly s (flush b s) := flushBy_hostOnly _ raiseSpaced_hostOnly b s
theorem flushKey_hostOnly (b s : State) : HostOnly s (flushKey b s) :=
  ((flushBy_hostOnly _ raise_hostOnly b s).trans (modHost_hostOnly _ _)).trans (foldS_hostOnly _ (fun s v => raise_hostOnly v s) _ _)

theorem ringError_hostOnly (r c : Nat) (s : State) : HostOnly s (ringError r c s) :=
  (modRing_hostOnly s _ _).trans (post_hostOnly _ _ _ _)

theorem tryFetch_hostOnly (r : Nat) (s : State) : HostOnly s (tryFetch r s) := by
  rw [tryFetch]
  split
  · exact .refl s
  · exact (modRing_hostOnly s _ _).trans (foldS_hostOnly _ (fun s e => hostReadAs_hostOnly _ _ _ _ s) _ _)

/-- A doorbell line read. -/
theorem doorbell_hostOnly (r t h : Nat) (s : State) : HostOnly s (doorbell r t h s) := by
  rw [doorbell]
  split
  · exact ringError_hostOnly _ _ _
  · exact (modRing_hostOnly s _ _).trans (tryFetch_hostOnly _ _)

theorem readDoorbell_hostOnly (r : Nat) (s : State) : HostOnly s (readDoorbell r s) :=
  (modRing_hostOnly s _ _).trans (hostReadAs_hostOnly _ _ _ _ _)

theorem askDoorbell_hostOnly (r : Nat) (s : State) : HostOnly s (askDoorbell r s) :=
  (modRing_hostOnly s _ _).trans (readDoorbell_hostOnly _ _)

/-! ### The lifecycle of a Carriageway -/

theorem modCwy_lifeOnly (s : State) (c : Nat) (f : Cwy → Cwy) : LifeOnly s (s.modCwy c f) := ⟨_, _, _, _, _, _, _, _, _, _, _, _, _, _, rfl⟩
theorem modLife_lifeOnly (s : State) (c : Nat) (f : Life → Life) : LifeOnly s (s.modLife c f) := modCwy_lifeOnly s c _
theorem modKv_lifeOnly (s : State) (c : Nat) (f : Kv → Kv) : LifeOnly s (s.modKv c f) := modCwy_lifeOnly s c _
theorem modPort_lifeOnly (s : State) (p : Nat) (f : Port → Port) : LifeOnly s (s.modPort p f) := ⟨_, _, _, _, _, _, _, _, _, _, _, _, _, _, rfl⟩
theorem modSp_lifeOnly (s : State) (n : Nat) (f : Spandrel → Spandrel) : LifeOnly s (s.modSp n f) := ⟨_, _, _, _, _, _, _, _, _, _, _, _, _, _, rfl⟩
theorem modTenant_lifeOnly (s : State) (t : Nat) (f : Tenant → Tenant) : LifeOnly s (s.modTenant t f) := ⟨_, _, _, _, _, _, _, _, _, _, _, _, _, _, rfl⟩
theorem setCheck_lifeOnly (s : State) (k : Option Check) : LifeOnly s (s.modChain (fun x => { x with check := k })) :=
  ⟨_, _, _, _, _, _, _, _, _, _, _, _, _, _, rfl⟩
theorem modCerts_lifeOnly (s : State) (f : Certs → Certs) : LifeOnly s (s.modCerts f) := ⟨_, _, _, _, _, _, _, _, _, _, _, _, _, _, rfl⟩

/-- A leaf joins the open window, and the store's granules are protected. -/
theorem addLeaf_lifeOnly (l : Leaf) (s : State) : LifeOnly s (addLeaf l s) := by
  unfold addLeaf protectStore
  exact (modCerts_lifeOnly s _).trans (modHost_hostOnly _ _).life

theorem dropRef_lifeOnly (c n : Nat) (s : State) : LifeOnly s (dropRef c n s) := modKv_lifeOnly s c _
theorem freeFrame_lifeOnly (c p f : Nat) (s : State) : LifeOnly s (freeFrame c p f s) := modKv_lifeOnly s c _

theorem freeFar_lifeOnly (q : Req) (s : State) : LifeOnly s (freeFar q s) := by
  unfold freeFar
  exact foldS_lifeOnly _ (fun s e => (modTenant_lifeOnly s _ _).trans (modKv_lifeOnly _ _ _)) _ _

theorem dropKv_lifeOnly (h : Nat) (q : Req) (s : State) : LifeOnly s (dropKv h q s) := by
  unfold dropKv
  dsimp only
  refine LifeOnly.trans ?_ (modKv_lifeOnly _ _ _)
  refine LifeOnly.trans ?_ (foldS_lifeOnly _ (fun s e => dropRef_lifeOnly _ _ _) _ _)
  refine LifeOnly.trans ?_ (foldS_lifeOnly _ (fun s e => freeFrame_lifeOnly _ _ _ _) _ _)
  refine LifeOnly.trans (freeFar_lifeOnly q s) (foldS_lifeOnly _ (fun s e => ?_) _ _)
  split
  · exact freeFrame_lifeOnly _ _ _ _
  · exact dropRef_lifeOnly _ _ _
  · exact .refl _

theorem releaseKv_lifeOnly (h : Nat) (q : Req) (s : State) : LifeOnly s (releaseKv h q s) :=
  (dropKv_lifeOnly h q s).trans (modKv_lifeOnly _ _ _)

theorem unpin_lifeOnly (q : Req) (s : State) : LifeOnly s (unpin q s) := by
  rw [unpin]
  split
  · exact modSp_lifeOnly s _ _
  · exact .refl s

theorem endOrder_lifeOnly (k st re a : Nat) (o : Option Pending) (s : State) : LifeOnly s (endOrder k st re a o s) := by
  unfold endOrder
  split
  · exact (complete_hostOnly _ _ _ _ _ _ _ _ _ _).life
  · exact .refl s

theorem reqs_lifeOnly (s : State) (r : Tab Req) : LifeOnly s { s with reqs := r } := ⟨_, _, _, _, _, _, _, _, _, _, _, _, _, _, rfl⟩

theorem endReq_lifeOnly (h st : Nat) (s : State) : LifeOnly s (endReq h st s) := by
  rw [endReq]
  split
  · exact .refl s
  · rename_i q _
    dsimp only
    have h1 := when_lifeOnly (s := s) (!(q.par.ring == 0xFFFFFFFF)) (f := issueCert h q st) (addLeaf_lifeOnly _ s)
    have h2 := (((h1.trans (endOrder_lifeOnly 2 (if st = 2 then 0 else 3) 0 q.gen.length q.cancel _)).trans
      (endOrder_lifeOnly 3 5 0x6B 0 q.pause _)).trans (endOrder_lifeOnly 4 5 0x6B 0 q.resume _)).trans
      (endOrder_lifeOnly 4 5 0x6B 0 q.acting _)
    have h3 := h2.trans (when_lifeOnly (!(q.par.ring == 0xFFFFFFFF))
      (complete_hostOnly q.par.ring q.par.tag q.par.dindex 1 st 0 (2 * b2n q.par.drawn) s.certs.serial (leNat q.par.seed) _).life)
    have h4 := fun r => ((h3.trans (releaseKv_lifeOnly h q _)).trans (unpin_lifeOnly q _)).trans (reqs_lifeOnly _ r)
    split
    · exact h4 _
    · split
      · exact h4 _
      · exact (((h4 _).trans (releaseKv_lifeOnly _ _ _)).trans (unpin_lifeOnly _ _)).trans (reqs_lifeOnly _ _)

theorem endAll_lifeOnly (c st : Nat) (s : State) : LifeOnly s (endAll c st s) :=
  foldS_lifeOnly _ (fun s (e : Nat × Req) => endReq_lifeOnly e.1 st s) _ _

theorem freeSlots_lifeOnly (c : Nat) (s : State) : LifeOnly s (freeSlots c s) :=
  foldS_lifeOnly _ (fun s p => modPort_lifeOnly s p _) _ _

theorem retireSlot_lifeOnly (n : Nat) (s : State) : LifeOnly s (retireSlot n s) := by
  unfold retireSlot
  exact (foldS_lifeOnly _ (fun s o => (complete_hostOnly _ _ _ _ _ _ _ _ _ s).life) _ s).trans (modSp_lifeOnly _ _ _)

theorem supersedeSp_lifeOnly (n : Nat) (s : State) : LifeOnly s (supersedeSp n s) := by
  rw [supersedeSp]
  split
  · exact (complete_hostOnly _ _ _ _ _ _ _ _ _ _).life
  · exact .refl s

theorem finishUnbind_lifeOnly (t : Nat) (s : State) : LifeOnly s (finishUnbind t s) := by
  rw [finishUnbind]
  refine ((foldS_lifeOnly _ (fun s h => endReq_lifeOnly h 8 s) _ s).trans
    (foldS_lifeOnly _ (fun s n => ?_) _ _)).trans (modTenant_lifeOnly _ _ _)
  exact ((supersedeSp_lifeOnly n s).trans (modCwy_lifeOnly _ _ _)).trans (retireSlot_lifeOnly n _)

theorem finishUnbinds_lifeOnly (c : Nat) (s : State) : LifeOnly s (finishUnbinds c s) :=
  foldS_lifeOnly _ (fun s t => finishUnbind_lifeOnly t s) _ _

/-- Fault events and the demands that they raise. -/
theorem addEvt_lifeOnly (u : WinUnit) (k n : Nat) (s : State) : LifeOnly s (addEvt u k n s) := by
  unfold addEvt
  split
  · exact .refl s
  · exact ⟨_, _, _, _, _, _, _, _, _, _, _, _, _, _, rfl⟩

theorem evaluate_lifeOnly (us : List WinUnit) (s : State) : LifeOnly s (evaluate us s) :=
  foldS_lifeOnly _ (fun _ _ => ⟨_, _, _, _, _, _, _, _, _, _, _, _, _, _, rfl⟩) _ _

theorem addEvents_lifeOnly (k : Nat) (es : List ErrRec) (s : State) : LifeOnly s (addEvents k es s) :=
  foldS_lifeOnly _ (fun s u => addEvt_lifeOnly u _ _ s) _ _

theorem closeErrs_lifeOnly (c : Nat) (s : State) : LifeOnly s (closeErrs c s) := by
  unfold closeErrs
  exact ((addEvents_lifeOnly _ _ s).trans (modCwy_lifeOnly _ c _)).trans (evaluate_lifeOnly _ _)

theorem noteHot_lifeOnly (ks : List Nat) (b s : State) : LifeOnly s (noteHot ks b s) :=
  foldS_lifeOnly _ (fun _ _ => ⟨_, _, _, _, _, _, _, _, _, _, _, _, _, _, rfl⟩) _ _

/-- A new RAS_WIN_CFG that waits for the Carriageway no longer. -/
theorem dropCfg_lifeOnly (c : Nat) (s : State) : LifeOnly s (dropCfg c s) :=
  LifeOnly.trans ⟨_, _, _, _, _, _, _, _, _, _, _, _, _, _, rfl⟩ (noteHot_lifeOnly _ _ _)

theorem cfgTakes_lifeOnly (c : Nat) (s : State) : LifeOnly s (cfgTakes c s) := by
  unfold cfgTakes
  split
  · exact (dropCfg_lifeOnly c s).trans (evaluate_lifeOnly _ _)
  · exact .refl s

/-- A Carriageway enters DISABLED. -/
theorem toDisabled_lifeOnly (c : Nat) (s : State) : LifeOnly s (toDisabled c s) := by
  unfold toDisabled
  dsimp only
  exact (((((closeErrs_lifeOnly c s).trans (cfgTakes_lifeOnly c _)).trans (endAll_lifeOnly c 8 _)).trans (finishUnbinds_lifeOnly c _)).trans
    (freeSlots_lifeOnly c _)).trans (modCwy_lifeOnly _ c _)

theorem stoppedEvent_hostOnly (c k : Nat) (s : State) : HostOnly s (stoppedEvent c k s) := post_hostOnly _ _ _ s

theorem stopNow_lifeOnly (c k : Nat) (s : State) : LifeOnly s (stopNow c k s) := by
  rw [stopNow]
  refine LifeOnly.trans ?_ (stoppedEvent_hostOnly c k _).life
  split
  · exact ((closeErrs_lifeOnly c s).trans (modLife_lifeOnly _ c _)).trans (toDisabled_lifeOnly c _)
  · exact (((closeErrs_lifeOnly c s).trans (modLife_lifeOnly _ c _)).trans (modCwy_lifeOnly _ c _)).trans (finishUnbinds_lifeOnly c _)

theorem trestleRespond_hostOnly (f : THead) (st re : Nat) (d : Bytes) (s : State) : HostOnly s (trestleRespond f st re d s) := by
  unfold trestleRespond
  split
  · exact .refl s
  · by_cases h : (f.dst != ‹Nat› || if f.ball = 0 then s.chain.isoDin else s.chain.isoDout) = true
    · rw [if_pos h]; exact .refl s
    · rw [if_neg h]; exact emit_hostOnly _ s

theorem dropCheck_lifeOnly (s : State) : LifeOnly s (dropCheck s) := by
  rw [dropCheck]
  split
  · exact .refl s
  · dsimp only
    split
    · exact (setCheck_lifeOnly s none).trans (trestleRespond_hostOnly _ _ _ _ _).life
    · exact setCheck_lifeOnly s none

/-- The device asks a Carriageway to stop (R154). -/
theorem askStop_lifeOnly (c k : Nat) (s : State) : LifeOnly s (askStop c k s) := by
  rw [askStop]
  split
  · exact modLife_lifeOnly s c _
  · exact modLife_lifeOnly s c _
  · exact (stopNow_lifeOnly c k s).trans (flush_hostOnly s _).life
  · exact ((((dropCheck_lifeOnly s).trans (modLife_lifeOnly _ c _)).trans (toDisabled_lifeOnly c _)).trans (flush_hostOnly s _).life).trans
      (stoppedEvent_hostOnly c k _).life
  · exact .refl s

/-- Halt-safe (R268): besides the flag only what the stops touch. -/
theorem enterHalt_cases (s : State) : LifeOnly (s.modRas (fun r => { r with haltSafe := true })) (enterHalt s) :=
  foldS_lifeOnly _ (fun s c => askStop_lifeOnly c 5 s) _ _

theorem enterHalt_haltSafe (s : State) : (enterHalt s).ras.haltSafe = true := by
  obtain ⟨_, _, _, _, _, _, _, _, _, _, _, _, _, _, h⟩ := enterHalt_cases s
  rw [h]; rfl

theorem capacityLoss_hostOnly (c d b : Nat) (s : State) : HostOnly s (capacityLoss c d b s) := post_hostOnly _ _ _ s

theorem stopUsers_lifeOnly (u : WinUnit) (s : State) : LifeOnly s (stopUsers u s) := by
  unfold stopUsers
  dsimp only
  exact foldS_lifeOnly _ (fun s c => (askStop_lifeOnly c 4 s).trans (capacityLoss_hostOnly _ _ _ _).life) _ _

/-- A port leaves a state, and a lane's move on it ends; from UP also ALERT cause 3 and the stops of the Carriageways that
use it (R335). -/
theorem leaveUp_cases (p st : Nat) (s : State) :
    LifeOnly ((endLanes p (s.modPort p (fun x => { x with state := st, moving := none, ctl := [] }))).when ((s.port p).state == 2)
      (fun t => t.modChain (fun x => { x with alertLatch := x.alertLatch ||| 8 }))) (leaveUp p st s) := by
  unfold leaveUp
  dsimp only
  by_cases h : ((s.port p).state == 2) = true
  · rw [h]
    exact (post_hostOnly _ _ _ _).life.trans (foldS_lifeOnly _ (fun s c => askStop_lifeOnly c 4 s) _ _)
  · rw [Bool.not_eq_true] at h
    rw [h]
    exact .refl _

/-- A retraction notice. -/
theorem retract_lifeOnly (u : WinUnit) (c : Nat) (s : State) : LifeOnly s (retract u c s) := by
  unfold retract
  dsimp only
  split
  · exact .refl s
  · exact ((addLeaf_lifeOnly _ s).trans (modCerts_lifeOnly _ _)).trans (post_hostOnly _ _ _ _).life

end Sys2Proof.Machine
end

