-- ==== Sys2Proof/Laws/Memory.lean ====
section
/-! SUPPORT. Memories: every operation keeps the canonical form, a read after a write gives the byte written,
and a write leaves every other byte alone. -/

namespace Sys2Proof.Machine

/-! ### The canonical form -/

/-- A memory whose addresses lie above a bound also lies above every lower bound. -/
theorem memWfFrom_mono {lo lo' : Nat} {m : Mem} (h : memWfFrom lo m = true) (hl : lo' ≤ lo) : memWfFrom lo' m = true := by
  cases m with
  | nil => rfl
  | cons e r =>
    simp only [memWfFrom, Bool.and_eq_true, decide_eq_true_eq] at h ⊢
    exact ⟨⟨by omega, h.1.2⟩, h.2⟩

/-- Every entry of a canonical memory lies at or above its bound and is not 0. -/
theorem memWfFrom_mem {m : Mem} {lo : Nat} (h : memWfFrom lo m = true) {e : Host.Cell} (he : e ∈ m) : lo ≤ e.1 ∧ e.2 ≠ 0 := by
  induction m generalizing lo with
  | nil => cases he
  | cons x r ih =>
    simp only [memWfFrom, Bool.and_eq_true, decide_eq_true_eq] at h
    rcases List.mem_cons.1 he with rfl | he
    · exact h.1
    · have := ih h.2 he
      exact ⟨by omega, this.2⟩

theorem memWfFrom_cons {lo a : Nat} {v : Byte} {r : Mem} :
    memWfFrom lo ((a, v) :: r) = true ↔ (lo ≤ a ∧ v ≠ 0) ∧ memWfFrom (a + 1) r = true := by
  simp only [memWfFrom, Bool.and_eq_true, decide_eq_true_eq]

theorem memWfFrom_memWrite {m : Mem} {lo a : Nat} {v : Byte} (h : memWfFrom lo m = true) (ha : lo ≤ a) :
    memWfFrom lo (memWrite m a v) = true := by
  induction m generalizing lo with
  | nil =>
    rw [memWrite]
    split
    · rfl
    · rename_i hv
      exact memWfFrom_cons.2 ⟨⟨ha, hv⟩, rfl⟩
  | cons x r ih =>
    obtain ⟨b, w⟩ := x
    have hx := memWfFrom_cons.1 h
    rw [memWrite]
    split
    · split
      · exact h
      · rename_i hab hv
        exact memWfFrom_cons.2 ⟨⟨ha, hv⟩, memWfFrom_cons.2 ⟨⟨by omega, hx.1.2⟩, hx.2⟩⟩
    · split
      · rename_i hab
        split
        · exact memWfFrom_mono hx.2 (by omega)
        · rename_i hv
          exact memWfFrom_cons.2 ⟨⟨ha, hv⟩, hab ▸ hx.2⟩
      · exact memWfFrom_cons.2 ⟨hx.1, ih hx.2 (by omega)⟩

/-- Writing one byte keeps the canonical form. -/
theorem memWf_memWrite {m : Mem} (h : memWf m = true) (a : Nat) (v : Byte) : memWf (memWrite m a v) = true :=
  memWfFrom_memWrite h (Nat.zero_le a)

/-- Writing a byte string keeps the canonical form. -/
theorem memWf_memPut {m : Mem} (h : memWf m = true) (a : Nat) (bs : Bytes) : memWf (memPut m a bs) = true := by
  induction bs generalizing m a with
  | nil => exact h
  | cons b r ih => exact ih (memWf_memWrite h a b) (a + 1)

theorem memWfFrom_filter {m : Mem} {lo : Nat} (p : Host.Cell → Bool) (h : memWfFrom lo m = true) :
    memWfFrom lo (m.filter p) = true := by
  induction m generalizing lo with
  | nil => rfl
  | cons x r ih =>
    simp only [memWfFrom, Bool.and_eq_true, decide_eq_true_eq] at h
    have hr := ih h.2
    by_cases hp : p x
    · simp only [List.filter_cons, hp, if_true, memWfFrom, Bool.and_eq_true, decide_eq_true_eq]
      exact ⟨h.1, hr⟩
    · simp only [List.filter_cons, hp]
      exact memWfFrom_mono hr (by omega)

/-- Zeroing a range keeps the canonical form. -/
theorem memWf_memZero {m : Mem} (h : memWf m = true) (a n : Nat) : memWf (memZero m a n) = true := memWfFrom_filter _ h

theorem memWfFrom_shift {m : Mem} {lo a : Nat} (h : memWfFrom lo m = true) (ha : a ≤ lo) :
    memWfFrom (lo - a) (m.map (fun e => (e.1 - a, e.2))) = true := by
  induction m generalizing lo with
  | nil => rfl
  | cons x r ih =>
    simp only [memWfFrom, Bool.and_eq_true, decide_eq_true_eq] at h
    simp only [List.map_cons, memWfFrom, Bool.and_eq_true, decide_eq_true_eq]
    refine ⟨⟨by omega, h.1.2⟩, ?_⟩
    have := ih h.2 (by omega)
    rwa [show x.1 + 1 - a = x.1 - a + 1 by omega] at this

theorem memWfFrom_raise {m : Mem} {lo a : Nat} (h : memWfFrom lo m = true) (hm : ∀ e ∈ m, a ≤ e.1) :
    memWfFrom (max lo a) m = true := by
  cases m with
  | nil => rfl
  | cons x r =>
    simp only [memWfFrom, Bool.and_eq_true, decide_eq_true_eq] at h ⊢
    have := hm x (by simp)
    exact ⟨⟨by omega, h.1.2⟩, h.2⟩

/-- A range moved to address 0 is canonical. -/
theorem memWf_memSlice {m : Mem} (h : memWf m = true) (a n : Nat) : memWf (memSlice m a n) = true := by
  have hf := memWfFrom_filter (fun e => a ≤ e.1 && e.1 < a + n) h
  have hm : ∀ e ∈ m.filter (fun e => a ≤ e.1 && e.1 < a + n), a ≤ e.1 := by
    intro e he
    have := (List.mem_filter.1 he).2
    simp only [Bool.and_eq_true, decide_eq_true_eq] at this
    exact this.1
  have := memWfFrom_shift (memWfFrom_raise hf hm) (Nat.le_max_right 0 a)
  exact memWfFrom_mono this (Nat.zero_le _)

/-! ### Reads and writes -/

/-- An address below every entry reads 0. -/
theorem memRead_below {m : Mem} {lo a : Nat} (h : memWfFrom lo m = true) (ha : a < lo) : memRead m a = 0 := by
  cases m with
  | nil => rfl
  | cons x r =>
    simp only [memWfFrom, Bool.and_eq_true, decide_eq_true_eq] at h
    obtain ⟨b, w⟩ := x
    simp only [memRead]
    rw [if_neg (by simp only at h; omega), if_pos (by simp only at h; omega)]

theorem memRead_memWrite_from {m : Mem} {lo a b : Nat} {v : Byte} (h : memWfFrom lo m = true) :
    memRead (memWrite m a v) b = if b = a then v else memRead m b := by
  induction m generalizing lo with
  | nil =>
    by_cases hv : v = 0 <;> simp only [memWrite, hv, if_true, if_false, memRead]
    · simp
    · by_cases hb : b = a
      · simp [hb]
      · rw [if_neg (Ne.symm hb), if_neg hb]; simp
  | cons x r ih =>
    obtain ⟨c, w⟩ := x
    simp only [memWfFrom, Bool.and_eq_true, decide_eq_true_eq] at h
    simp only [memWrite]
    split
    · rename_i hac
      by_cases hv : v = 0
      · simp only [hv, if_true]
        by_cases hb : b = a
        · subst hb; simp only [if_true, memRead]; rw [if_neg (by omega), if_pos hac]
        · simp [hb]
      · simp only [hv, if_false]
        by_cases hb : b = a
        · simp [hb, memRead]
        · rw [if_neg hb, memRead]
          rw [if_neg (Ne.symm hb)]
          split
          · rename_i hba
            symm; simp only [memRead]; rw [if_neg (by omega), if_pos (by omega)]
          · rfl
    · split
      · rename_i hac
        subst hac
        by_cases hv : v = 0
        · simp only [hv, if_true]
          by_cases hb : b = a
          · subst hb; simp only [if_true]; exact memRead_below h.2 (by omega)
          · simp only [hb, if_false, memRead]
            rw [if_neg (Ne.symm hb)]
            split
            · exact memRead_below h.2 (by omega)
            · rfl
        · rw [if_neg hv]
          by_cases hb : b = a
          · rw [memRead, if_pos hb.symm, if_pos hb]
          · rw [memRead, if_neg (Ne.symm hb), if_neg hb, memRead, if_neg (Ne.symm hb)]
      · rename_i h1 h2
        simp only [memRead]
        by_cases hcb : c = b
        · subst hcb; rw [if_pos rfl, if_pos rfl, if_neg (Ne.symm h2)]
        · rw [if_neg hcb, if_neg hcb]
          by_cases hbc : b < c
          · rw [if_pos hbc, if_pos hbc]
            rw [if_neg (by omega)]
          · rw [if_neg hbc, if_neg hbc]
            exact ih h.2

/-- A byte read after a byte is written. -/
theorem memRead_memWrite {m : Mem} (h : memWf m = true) (a b : Nat) (v : Byte) :
    memRead (memWrite m a v) b = if b = a then v else memRead m b := memRead_memWrite_from h

/-- A byte read after a byte string is written. -/
theorem memRead_memPut {m : Mem} (h : memWf m = true) (a b : Nat) (bs : Bytes) :
    memRead (memPut m a bs) b = if a ≤ b ∧ b < a + bs.length then bs.getD (b - a) 0 else memRead m b := by
  induction bs generalizing m a with
  | nil => simp [memPut] <;> omega
  | cons x r ih =>
    rw [memPut, ih (memWf_memWrite h a x), memRead_memWrite h]
    by_cases hb : b = a
    · subst hb
      rw [if_neg (by omega), if_pos rfl, if_pos (by simp only [List.length_cons]; omega)]
      simp
    · by_cases hr : a + 1 ≤ b ∧ b < a + 1 + r.length
      · rw [if_pos hr, if_pos (by simp only [List.length_cons]; omega), show b - a = (b - (a + 1)) + 1 by omega]
        simp
      · rw [if_neg hr, if_neg hb, if_neg (by simp only [List.length_cons]; omega)]

/-- A byte outside the bytes written reads as before. -/
theorem memRead_memPut_outside {m : Mem} (h : memWf m = true) {a b : Nat} {bs : Bytes} (hb : b < a ∨ a + bs.length ≤ b) :
    memRead (memPut m a bs) b = memRead m b := by
  rw [memRead_memPut h, if_neg (by omega)]

end Sys2Proof.Machine
end

