-- ==== Sys2Proof/Laws/PerInstr.lean ====
section
/-! SUPPORT. The family Ranges, one lemma per command: a well-formed command has every bounded operand in the
range that Kind.range gives it. -/

namespace Sys2Proof.Laws.Ranges

/-- Every bounded operand of a well-formed command lies in its range. -/
def Statement (i : Instr) : Prop := i.wf = true → ∀ e ∈ i.operands, e.1.range.1 ≤ e.2 ∧ e.2 ≤ e.1.range.2

theorem of_wf (i : Instr) : Statement i := by
  intro h e he
  have := List.all_eq_true.mp h e he
  simpa [Kind.admits] using this

theorem perstNDeassert : Statement .perstNDeassert := of_wf _
theorem perstNAssert : Statement .perstNAssert := of_wf _
theorem configRequest (q) : Statement (.configRequest q) := of_wf _
theorem stageRom (hdr) : Statement (.stageRom hdr) := of_wf _
theorem stageVerify (code) : Statement (.stageVerify code) := of_wf _
theorem stageDies (pllFail linkFail) : Statement (.stageDies pllFail linkFail) := of_wf _
theorem stageHbm (failRows spareRows) : Statement (.stageHbm failRows spareRows) := of_wf _
theorem stageLedger (recs) : Statement (.stageLedger recs) := of_wf _
theorem stageMargin (res) : Statement (.stageMargin res) := of_wf _
theorem stageCal : Statement .stageCal := of_wf _
theorem recBufferWrite (off data) : Statement (.recBufferWrite off data) := of_wf _
theorem recBegin (len) : Statement (.recBegin len) := of_wf _
theorem recChunk (chunk count) : Statement (.recChunk chunk count) := of_wf _
theorem recFinish : Statement .recFinish := of_wf _
theorem recAbort : Statement .recAbort := of_wf _
theorem recReinitLedger : Statement .recReinitLedger := of_wf _
theorem recoveryProgramDone (programmed readBack) : Statement (.recoveryProgramDone programmed readBack) := of_wf _
theorem commitSvn (cmd) : Statement (.commitSvn cmd) := of_wf _
theorem commitSvnDone : Statement .commitSvnDone := of_wf _
theorem watchdogExpiry : Statement .watchdogExpiry := of_wf _
theorem hkUncorrectableError : Statement .hkUncorrectableError := of_wf _
theorem housekeeperRestart (p hdr code) : Statement (.housekeeperRestart p hdr code) := of_wf _
theorem watchdogService : Statement .watchdogService := of_wf _
theorem registerWrite (p off size val) : Statement (.registerWrite p off size val) := of_wf _
theorem pllLockLoss (d) : Statement (.pllLockLoss d) := of_wf _
theorem jobFreqWrite (p n) : Statement (.jobFreqWrite p n) := of_wf _
theorem slewComplete : Statement .slewComplete := of_wf _
theorem idleGlideStep : Statement .idleGlideStep := of_wf _
theorem droopTrip (d) : Statement (.droopTrip d) := of_wf _
theorem droopClear : Statement .droopClear := of_wf _
theorem slewResume : Statement .slewResume := of_wf _
theorem vrAlertAssert (status) : Statement (.vrAlertAssert status) := of_wf _
theorem vrAlertDeassert : Statement .vrAlertDeassert := of_wf _
theorem floorRelease : Statement .floorRelease := of_wf _
theorem marginSearch (res) : Statement (.marginSearch res) := of_wf _
theorem powerSample (mv) : Statement (.powerSample mv) := of_wf _
theorem energySplit (acts) : Statement (.energySplit acts) := of_wf _
theorem capLoop : Statement .capLoop := of_wf _
theorem pwrCapWrite (p w) : Statement (.pwrCapWrite p w) := of_wf _
theorem hintBoostStart (n) : Statement (.hintBoostStart n) := of_wf _
theorem hintWindowEnd (n) : Statement (.hintWindowEnd n) := of_wf _
theorem thermalModelStep : Statement .thermalModelStep := of_wf _
theorem diodeRead (vals) : Statement (.diodeRead vals) := of_wf _
theorem thermalCompare : Statement .thermalCompare := of_wf _
theorem shutdownComplete (n) : Statement (.shutdownComplete n) := of_wf _
theorem thermtrip (d) : Statement (.thermtrip d) := of_wf _
theorem beat (op bay mask slot rec stride) : Statement (.beat op bay mask slot rec stride) := of_wf _
theorem conversionSlot (span bay phys m raw faulty) : Statement (.conversionSlot span bay phys m raw faulty) := of_wf _
theorem beatVerdict (span bay phys residue) : Statement (.beatVerdict span bay phys residue) := of_wf _
theorem slotApply (span bay t mismatch) : Statement (.slotApply span bay t mismatch) := of_wf _
theorem ballast (op bay mask) : Statement (.ballast op bay mask) := of_wf _
theorem wseg (op bay pier slot rec residue) : Statement (.wseg op bay pier slot rec residue) := of_wf _
theorem slotClear (op bay slot) : Statement (.slotClear op bay slot) := of_wf _
theorem slotDrain (op bay slot off) : Statement (.slotDrain op bay slot off) := of_wf _
theorem slotSend (op bay slot dst crc) : Statement (.slotSend op bay slot dst crc) := of_wf _
theorem combine (op bay slot) : Statement (.combine op bay slot) := of_wf _
theorem partialSumFlitArrival (span bay t f) : Statement (.partialSumFlitArrival span bay t f) := of_wf _
theorem girder (op g routine arg0 arg1 k fixed fail) : Statement (.girder op g routine arg0 arg1 k fixed fail) := of_wf _
theorem vfmaBf16 (i u) : Statement (.vfmaBf16 i u) := of_wf _
theorem vfmaF32 (i u) : Statement (.vfmaF32 i u) := of_wf _
theorem vdotI8 (i serves u) : Statement (.vdotI8 i serves u) := of_wf _
theorem valu (i f u) : Statement (.valu i f u) := of_wf _
theorem vmax (i fmt u) : Statement (.vmax i fmt u) := of_wf _
theorem vex2 (i u) : Statement (.vex2 i u) := of_wf _
theorem vrcp (i u) : Statement (.vrcp i u) := of_wf _
theorem vrsq (i u) : Statement (.vrsq i u) := of_wf _
theorem vreq (i r u) : Statement (.vreq i r u) := of_wf _
theorem vtopk (i fmt k fresh slot u) : Statement (.vtopk i fmt k fresh slot u) := of_wf _
theorem vld (i off t) : Statement (.vld i off t) := of_wf _
theorem vst (i off t) : Statement (.vst i off t) := of_wf _
theorem vrld (i grp off t) : Statement (.vrld i grp off t) := of_wf _
theorem salu (i f u) : Statement (.salu i f u) := of_wf _
theorem smul (i u) : Statement (.smul i u) := of_wf _
theorem loop (i words times) : Statement (.loop i words times) := of_wf _
theorem endRoutine (span girder t) : Statement (.endRoutine span girder t) := of_wf _
theorem move (op src dst flits crc) : Statement (.move op src dst flits crc) := of_wf _
theorem hbmRd (op hoff laddr flits ecc crc) : Statement (.hbmRd op hoff laddr flits ecc crc) := of_wf _
theorem hbmWr (op hoff laddr flits crc) : Statement (.hbmWr op hoff laddr flits crc) := of_wf _
theorem kvRd (op aslot page pages head laddr ecc crc) : Statement (.kvRd op aslot page pages head laddr ecc crc) := of_wf _
theorem kvStage (op aslot tok head laddr crc) : Statement (.kvStage op aslot tok head laddr crc) := of_wf _
theorem plSend (op dir dmember rxbuf tag saddr flits) : Statement (.plSend op dir dmember rxbuf tag saddr flits) := of_wf _
theorem wait (op arrivals) : Statement (.wait op arrivals) := of_wf _
theorem waitRelease (c) : Statement (.waitRelease c) := of_wf _
theorem waitLimitExpiry (c dir) : Statement (.waitLimitExpiry c dir) := of_wf _
theorem streamDrainDone (c) : Statement (.streamDrainDone c) := of_wf _
theorem streamFetch (c die block fail) : Statement (.streamFetch c die block fail) := of_wf _
theorem keystone (op sel) : Statement (.keystone op sel) := of_wf _
theorem voteFrameArrival (c child f) : Statement (.voteFrameArrival c child f) := of_wf _
theorem releaseFrameArrival (c f acts) : Statement (.releaseFrameArrival c f acts) := of_wf _
theorem bodyStart (c t) : Statement (.bodyStart c t) := of_wf _
theorem keystoneTimeout (c) : Statement (.keystoneTimeout c) := of_wf _
theorem idleKeystone (c) : Statement (.idleKeystone c) := of_wf _
theorem takeoverKeystone (c) : Statement (.takeoverKeystone c) := of_wf _
theorem holdDone (c readBackFail) : Statement (.holdDone c readBackFail) := of_wf _
theorem jobStart (c others) : Statement (.jobStart c others) := of_wf _
theorem ballastTimer (c t) : Statement (.ballastTimer c t) := of_wf _
theorem rampWindow (c t) : Statement (.rampWindow c t) := of_wf _
theorem cwyEnable (p c) : Statement (.cwyEnable p c) := of_wf _
theorem cwyDisable (p c) : Statement (.cwyDisable p c) := of_wf _
theorem cwyResume (p c en) : Statement (.cwyResume p c en) := of_wf _
theorem consistencyCheckDone : Statement .consistencyCheckDone := of_wf _
theorem grantWrite (p c k w) : Statement (.grantWrite p c k w) := of_wf _
theorem tenantBind (t) : Statement (.tenantBind t) := of_wf _
theorem bindingCheckDone : Statement .bindingCheckDone := of_wf _
theorem tenantUnbind (t) : Statement (.tenantUnbind t) := of_wf _
theorem doorbellSnoop (r sqTail cqHead) : Statement (.doorbellSnoop r sqTail cqHead) := of_wf _
theorem doorbellPoll (r sqTail cqHead) : Statement (.doorbellPoll r sqTail cqHead) := of_wf _
theorem doorbellModeChange (lines) : Statement (.doorbellModeChange lines) := of_wf _
theorem descriptorReadComplete (r descs) : Statement (.descriptorReadComplete r descs) := of_wf _
theorem submit (r) : Statement (.submit r) := of_wf _
theorem cancel (r) : Statement (.cancel r) := of_wf _
theorem pause (r) : Statement (.pause r) := of_wf _
theorem resume (r) : Statement (.resume r) := of_wf _
theorem query (r) : Statement (.query r) := of_wf _
theorem fetchCert (r) : Statement (.fetchCert r) := of_wf _
theorem loadWeights (r) : Statement (.loadWeights r) := of_wf _
theorem loadWeightsKeyEnvelope (r) : Statement (.loadWeightsKeyEnvelope r) := of_wf _
theorem replaceLayer (r) : Statement (.replaceLayer r) := of_wf _
theorem loadSpandrel (r) : Statement (.loadSpandrel r) := of_wf _
theorem retireSpandrel (r) : Statement (.retireSpandrel r) := of_wf _
theorem hint (r) : Statement (.hint r) := of_wf _
theorem reservedKind (r) : Statement (.reservedKind r) := of_wf _
theorem promptChunkRead (h toks) : Statement (.promptChunkRead h toks) := of_wf _
theorem prefixLookupRead (h toks) : Statement (.prefixLookupRead h toks) := of_wf _
theorem hostAccessFailure (a) : Statement (.hostAccessFailure a) := of_wf _
theorem ringAccessFailure (r cause n) : Statement (.ringAccessFailure r cause n) := of_wf _
theorem ttlLapse (h) : Statement (.ttlLapse h) := of_wf _
theorem copyOutBlockAck (h page blk) : Statement (.copyOutBlockAck h page blk) := of_wf _
theorem restoreBlockRead (h page blk ct) : Statement (.restoreBlockRead h page blk ct) := of_wf _
theorem bundleChunk (c read) : Statement (.bundleChunk c read) := of_wf _
theorem bundleLoadDone (c) : Statement (.bundleLoadDone c) := of_wf _
theorem bulkWriteDone (span bay phys fin) : Statement (.bulkWriteDone span bay phys fin) := of_wf _
theorem spandrelPlaced (n) : Statement (.spandrelPlaced n) := of_wf _
theorem refreshReadDone (span bay read) : Statement (.refreshReadDone span bay read) := of_wf _
theorem refreshRowWrite (span bay phys row) : Statement (.refreshRowWrite span bay phys row) := of_wf _
theorem refreshOverdue (span bay phys) : Statement (.refreshOverdue span bay phys) := of_wf _
theorem vrefSample (v) : Statement (.vrefSample v) := of_wf _
theorem calibrationBeat (span bay phys t) : Statement (.calibrationBeat span bay phys t) := of_wf _
theorem calPassDone (span bay phys sums ver) : Statement (.calPassDone span bay phys sums ver) := of_wf _
theorem recoveryActionStart : Statement .recoveryActionStart := of_wf _
theorem winCfgWrite (p w) : Statement (.winCfgWrite p w) := of_wf _
theorem ledgerWrite (ok) : Statement (.ledgerWrite ok) := of_wf _
theorem ledgerCheckpoint (ok) : Statement (.ledgerCheckpoint ok) := of_wf _
theorem ledgerCompaction (ok) : Statement (.ledgerCompaction ok) := of_wf _
theorem inspectionBeat (span bay phys t seg codes) : Statement (.inspectionBeat span bay phys t seg codes) := of_wf _
theorem spareInspection (span bay phys run) : Statement (.spareInspection span bay phys run) := of_wf _
theorem girderInspection (span girder run) : Statement (.girderInspection span girder run) := of_wf _
theorem inspectionStarved (unit span bay index) : Statement (.inspectionStarved unit span bay index) := of_wf _
theorem fenceClear (p w) : Statement (.fenceClear p w) := of_wf _
theorem fenceClearDone (runs) : Statement (.fenceClearDone runs) := of_wf _
theorem windowClose : Statement .windowClose := of_wf _
theorem windowSigned : Statement .windowSigned := of_wf _
theorem signingFailure : Statement .signingFailure := of_wf _
theorem eventHeadPoll (head) : Statement (.eventHeadPoll head) := of_wf _
theorem eventRingFailure (n) : Statement (.eventRingFailure n) := of_wf _
theorem eventRingEnable : Statement .eventRingEnable := of_wf _
theorem msixUnmask (v) : Statement (.msixUnmask v) := of_wf _
theorem ringEnable (r) : Statement (.ringEnable r) := of_wf _
theorem ringDisable (r) : Statement (.ringDisable r) := of_wf _
theorem ringOff (r) : Statement (.ringOff r) := of_wf _
theorem hdmMapWrite (w) : Statement (.hdmMapWrite w) := of_wf _
theorem landMapWrite (w) : Statement (.landMapWrite w) := of_wf _
theorem hdmAccess (off q) : Statement (.hdmAccess off q) := of_wf _
theorem bar2Access (off q) : Statement (.bar2Access off q) := of_wf _
theorem atsInvalidation (pasid page) : Statement (.atsInvalidation pasid page) := of_wf _
theorem cxlLinkLoss : Statement .cxlLinkLoss := of_wf _
theorem hotReset : Statement .hotReset := of_wf _
theorem d3hot : Statement .d3hot := of_wf _
theorem doeDiscovery (index) : Statement (.doeDiscovery index) := of_wf _
theorem cdatTableAccess (entry) : Statement (.cdatTableAccess entry) := of_wf _
theorem getVersion (q) : Statement (.getVersion q) := of_wf _
theorem getCapabilities (q) : Statement (.getCapabilities q) := of_wf _
theorem negotiateAlgorithms (p head body) : Statement (.negotiateAlgorithms p head body) := of_wf _
theorem getDigests (q) : Statement (.getDigests q) := of_wf _
theorem getCertificate (p head off len) : Statement (.getCertificate p head off len) := of_wf _
theorem challenge (p head body) : Statement (.challenge p head body) := of_wf _
theorem getMeasurements (p head nonce body) : Statement (.getMeasurements p head nonce body) := of_wf _
theorem spdmUnsupportedRequest (p msg) : Statement (.spdmUnsupportedRequest p msg) := of_wf _
theorem enumerate (f next restart) : Statement (.enumerate f next restart) := of_wf _
theorem ident (f) : Statement (.ident f) := of_wf _
theorem regRead (f off words) : Statement (.regRead f off words) := of_wf _
theorem regWrite (f off words) : Statement (.regWrite f off words) := of_wf _
theorem jobKey (f c env) : Statement (.jobKey f c env) := of_wf _
theorem alert (f clear) : Statement (.alert f clear) := of_wf _
theorem spdm (f msg) : Statement (.spdm f msg) := of_wf _
theorem response (f payload) : Statement (.response f payload) := of_wf _
theorem ballContention (ball periods) : Statement (.ballContention ball periods) := of_wf _
theorem ballStuckLow (ball) : Statement (.ballStuckLow ball) := of_wf _
theorem clrIso (p) : Statement (.clrIso p) := of_wf _
theorem lnkTorusWrite (p w) : Statement (.lnkTorusWrite p w) := of_wf _
theorem portMapWrite (p port dir) : Statement (.portMapWrite p port dir) := of_wf _
theorem portDisable (p port dis) : Statement (.portDisable p port dis) := of_wf _
theorem retrain (p port) : Statement (.retrain p port) := of_wf _
theorem retrainTimer (port) : Statement (.retrainTimer port) := of_wf _
theorem lnkThruWrite (p q w) : Statement (.lnkThruWrite p q w) := of_wf _
theorem signalDetect (port res) : Statement (.signalDetect port res) := of_wf _
theorem laneIdentification (port locked) : Statement (.laneIdentification port locked) := of_wf _
theorem identityExchange (port idf) : Statement (.identityExchange port idf) := of_wf _
theorem trainingDone (port lat) : Statement (.trainingDone port lat) := of_wf _
theorem identityFrame (port idf) : Statement (.identityFrame port idf) := of_wf _
theorem laneLossOfLock (port lane lost) : Statement (.laneLossOfLock port lane lost) := of_wf _
theorem laneChangeFrame (port lane) : Statement (.laneChangeFrame port lane) := of_wf _
theorem laneSpareMove (port) : Statement (.laneSpareMove port) := of_wf _
theorem frameTransmit (port slot) : Statement (.frameTransmit port slot) := of_wf _
theorem dataFrameArrival (port wire lockLost) : Statement (.dataFrameArrival port wire lockLost) := of_wf _
theorem frameForward (port bytes) : Statement (.frameForward port bytes) := of_wf _
theorem throughFrame (port bytes) : Statement (.throughFrame port bytes) := of_wf _
theorem nakFrame (port c index) : Statement (.nakFrame port c index) := of_wf _
theorem cxlLinkTrained (width rate flit256) : Statement (.cxlLinkTrained width rate flit256) := of_wf _
theorem openBlockWriteVisible (c blk) : Statement (.openBlockWriteVisible c blk) := of_wf _
theorem reservedFtypeFrame (port bytes) : Statement (.reservedFtypeFrame port bytes) := of_wf _
theorem reservedTrestleFrame (f typ payload) : Statement (.reservedTrestleFrame f typ payload) := of_wf _

end Sys2Proof.Laws.Ranges
end

