-- ==== Sys2Proof/Tests/Slice0.lean ====
section
/-! SUPPORT. The tests of this package: ill-formed terms that WellFormed refuses, a state that meets the hypotheses of each
clause of each statement, and small runs of one step whose expected values come from the spec. -/

namespace Sys2Proof.Tests

open Sys2Proof.Machine

/-! ### Well-formedness: one term beyond the range of each kind of operand -/

def op0 : Op := { cwy := 0, die := 0, cyc := 0, pred := 0, layer := 0 }
def gi0 : GInstr := { span := 0, girder := 0, vd := 2, va := 0, vb := 1, pred := 0 }
def fr0 : THead := { ball := 0, dst := 5, src := 0xC0, seq := 1, len := 0, crc := 0, clash := false }

/-- One ill-formed command for each kind of operand, with that kind. -/
def illFormed : List (Kind × Instr) := [
  (.die, .thermtrip 8), (.span, .beatVerdict 6 0 0 false), (.bay, .beatVerdict 0 256 0 false), (.phys, .beatVerdict 0 0 17 false),
  (.logical, .wseg op0 0 16 0 0 false), (.mask, .beat op0 0 65536 0 0 0), (.slot, .beat op0 0 0 32 0 0),
  (.segRec, .beat op0 0 0 0 32768 0), (.stride, .beat op0 0 0 0 0 256), (.deckUnit, .slotDrain op0 0 0 20480),
  (.laddr, .hbmRd op0 0 2097152 1 [] []), (.sramUnit, .slotSend op0 0 0 (.sram 6 1572864) []), (.grp, .vrld gi0 64 0 0),
  (.girder, .girder op0 64 0 0 0 .other 0 {}), (.routine, .girder op0 0 1024 0 0 .other 0 {}),
  (.arg32, .girder op0 0 0 4294967296 0 .other 0 {}), (.flits, .hbmRd op0 0 0 0 [] []), (.hoff, .hbmWr op0 8589934592 0 1 []),
  (.aslot, .kvStage op0 1024 0 0 0 []), (.page, .kvRd op0 0 1048576 1 0 0 [] []), (.pages, .kvRd op0 0 0 0 0 0 [] []),
  (.head, .kvStage op0 0 0 8 0 []), (.tok, .kvStage op0 0 256 0 0 []), (.dir, .plSend op0 6 0 0 0 0 1),
  (.member, .plSend op0 0 32768 0 0 0 1), (.rxbuf, .plSend op0 0 0 256 0 0 1), (.tag, .plSend op0 0 0 0 65536 0 1),
  (.len64, .hbmWr op0 0 0 1 [{ flit := 0, link := 0, data := [] }])]

def illFormed2 : List (Kind × Instr) := [
  (.arrivals, .wait op0 (List.replicate 4 { rxbuf := 0, tag := 0 })), (.cwy, .idleKeystone 64), (.cyc, .wait { op0 with cyc := 4194304 } []),
  (.pred, .wait { op0 with pred := 3 } []), (.layer, .wait { op0 with layer := 256 } []), (.vreg, .smul { gi0 with vd := 64 } .sound),
  (.gpred, .smul { gi0 with pred := 8 } .sound), (.freqStep, .jobFreqWrite .host 64), (.tenant, .tenantBind 1024), (.ring, .submit 1088),
  (.spandrel, .spandrelPlaced 256), (.port, .laneSpareMove 6), (.lane, .laneChangeFrame 0 9), (.ball, .ballStuckLow 2),
  (.vector, .msixUnmask 2048), (.convSlot, .conversionSlot 0 0 0 8 (List.replicate 66 0) false), (.conv66, .conversionSlot 0 0 0 0 [] false),
  (.psFlit, .partialSumFlitArrival 0 0 0 35), (.len64, .descriptorReadComplete 0 [[]]),
  (.grantWord, .grantWrite .host 0 16 0), (.frameSlot, .frameTransmit 0 64), (.byte8, .reservedTrestleFrame fr0 256 []),
  (.hint, .hintBoostStart 4294967296), (.unitKind, .inspectionStarved 2 0 0 0), (.codeVersion, .getVersion ⟨.doe, [0x10, 0x83, 0, 0]⟩),
  (.len448, .voteFrameArrival 0 0 { port := 0, wire := [], lockLost := none }), (.len416, .frameForward 0 []), (.len448, .dataFrameArrival 0 [] none),
  (.len1664, .jobKey fr0 0 []), (.dies8, .fenceClearDone []), (.regs4, .vrAlertAssert []), (.rails11, .powerSample []),
  (.cols528, .calPassDone 0 0 0 [] []), (.words16, .regWrite fr0 0 [])]

def spdm4 (code : Nat) : List Byte := [0x14, BitVec.ofNat 8 code, 0, 0]
def illFormed3 : List (Kind × Instr) := [
  (.spdmLen, .spdm fr0 [0x14, 0x84, 0]), (.codeCaps, .getCapabilities ⟨.doe, spdm4 0xE2⟩), (.codeAlgs, .negotiateAlgorithms .doe (spdm4 0xE1) []),
  (.codeDigests, .getDigests ⟨.doe, spdm4 0x82⟩), (.codeCert, .getCertificate .doe (spdm4 0x81) [] []),
  (.codeChallenge, .challenge .trestle (spdm4 0xE0) []), (.codeMeasures, .getMeasurements .trestle (spdm4 0x83) [] [])]

/-- The kinds of the operands of a command that lie outside their range. -/
def faulty (i : Instr) : List Kind := (i.operands.filter (fun e => !e.1.admits e.2)).map (·.1)

theorem test_wf_refuses_each_kind : illFormed.all (fun e => !e.2.wf && faulty e.2 == [e.1]) = true := by decide
theorem test_wf_refuses_each_kind_2 : illFormed2.all (fun e => !e.2.wf && faulty e.2 == [e.1]) = true := by decide
theorem test_wf_refuses_each_kind_3 : illFormed3.all (fun e => !e.2.wf && faulty e.2 == [e.1]) = true := by decide
theorem test_wf_admits : Instr.wf (.beat op0 255 65535 31 32767 255) && Instr.wf (.hbmRd op0 8589934591 2097151 4095 [(4094, true)] []) &&
    Instr.wf (.ident fr0) && Instr.wf (.wait op0 (List.replicate 3 { rxbuf := 255, tag := 65535 })) = true := by decide


/-! ### States that meet the hypotheses of the statements

Each `wit_<Name>` shows, for the statement of that name, a concrete state and operands that meet the hypotheses of each of its
clauses, in the order of the clauses. -/

/-- After reset (stage ROM), held by PERST_N, in boot stage n, in READY, and in READY after a latched halt-safe. -/
def rom : State := State.reset
def held : State := { rom with host := { rom.host with perst := true } }
def stage (n : Nat) : State := { rom with mgt := { rom.mgt with stage := n } }
def up : State := stage 8
def mgtAt (m : Mgt) : State := { rom with mgt := m }
def pwAt (p : Power) : State := { up with pw := p }
/-- An order of the path p waits. -/
def behind (p : Path) (s : State) : State := { s with chain := { s.chain with held := [{ slot := 1, instr := .cwyEnable p 3 }] } }

theorem wit_StepRunsTheFrontCommand : { rom with pending := [.stageCal, .droopClear] }.pending = .stageCal :: [.droopClear] := by decide

theorem wit_IdleStepIsOneTick : up.pending = [] ∧ up.running ∧ up.chain.held = [] := by decide

theorem wit_EveryCommandAnswersAndKeepsTheQueue : mayFault .stageCal = false ∧ mayFault (.slotClear op0 0 31) = false := by decide

theorem wit_OnlyStoringCommandsTouchMemory : storing (.droopTrip 0) = false ∧ resetting (.droopTrip 0) = false ∧
    (match exec (.droopTrip 0) up with | .next _ => true | _ => false) = true := by decide

theorem wit_MemoriesStayCanonical : ({ up with hbm := memPut [] 5 [1, 0, 2] }).memoriesWf = true ∧
    (match step { up with hbm := memPut [] 5 [1, 0, 2], pending := [.droopClear] } with | .next _ => true | _ => false) = true := by decide

/-- A state whose Housekeeper runs COMMIT_SVN for an image of svn 3. -/
def committing : State := { up with mgt := { up.mgt with hkResult := 1, fwSvn := 3 }, pending := [.commitSvnDone] }

theorem wit_FusesOnlyRise : (match step committing with | .next t => t.nv.otpSvn == 3 | _ => false) = true ∧ committing.nvOk := by
  refine ⟨by decide, ?_⟩; unfold State.nvOk; decide

theorem wit_OtpSvnIsRaisedOnlyByCommitSvn :
    (match step committing with | .next t => t.nv.otpSvn != committing.nv.otpSvn | _ => false) = true ∧
    (up.running ∧ up.waitsBehind .host = false ∧ up.mgt.hkStopped = false ∧ up.mgt.stage = 8 ∧ up.mgt.hkResult ≠ 1) ∧
    (committing.running ∧ committing.mgt.hkStopped = false ∧ committing.mgt.hkResult = 1 ∧ committing.nv.otpSvn < committing.mgt.fwSvn) ∧
    (let s := { rom with nv := { otpSvn := 1 } }; s.running ∧ s.mgt.hkStopped = false ∧ s.mgt.stage = 1 ∧
      getLe (slice (s.imageBytes 0 8192 [0x31, 0x4C]) 0 8192) 6 2 < s.nv.otpSvn) := by decide

theorem wit_PerstHoldsAndResetsTheDevice :
    (held.host.perst = true ∧ resetting .stageCal = false) ∧ held.host.perst = true ∧ up.running ∧ up.mgt.recResult ≠ 3 ∧
    (mgtAt { recResult := 3 }).mgt.recResult = 3 := by decide

/-- The Housekeeper has stopped. -/
def stopped : State := mgtAt { hkStopped := true }

/-- Every set-point of a search passes; those down to 700 mV pass; only 830 mV passes; none passes. -/
def allPass : MarginResult := ⟨(List.range 31).map (fun k => 800 - 5 * k)⟩
def lowered : MarginResult := ⟨(List.range 21).map (fun k => 800 - 5 * k)⟩
def raised : MarginResult := ⟨[830]⟩
def noPass : MarginResult := ⟨[]⟩

theorem wit_BootStagesRunInOrder : (stopped.running ∧ stopped.mgt.hkStopped = true) ∧
    (rom.running ∧ rom.mgt.hkStopped = false ∧ rom.mgt.stage = 1) ∧ ((stage 2).running ∧ (stage 2).mgt.stage = 2) ∧
    ((stage 3).running ∧ (stage 3).mgt.stage = 3 ∧ 6 ∉ [0, 5] ∧ 7 ∉ [0, 5] ∧ 1043 ∉ [1042]) ∧
    ((stage 4).running ∧ (stage 4).mgt.stage = 4 ∧ ∀ k < 8, ([3, 0] : List Nat).getD k 0 ≤ [3, 1].getD k 0) ∧
    ((stage 6).running ∧ (stage 6).mgt.stage = 6 ∧ (stage 6).searchFails [lowered, raised, allPass, allPass, allPass, allPass, allPass, allPass] = []) ∧ (stage 7).mgt.stage = 7 := by decide

theorem wit_BootStagesRunInOrder_cal : ∀ b, ((stage 7).bay b).calPending = false := fun _ => rfl

/-- A sound checkpoint record of boot 7. -/
def checkpoint7 : Bytes :=
  let b := leBytes 1 5 ++ zeros 15 ++ leBytes 4 7 ++ zeros 8
  b ++ leBytes 4 (crc32c b)

theorem wit_BootStagesRunInOrder_ledger : (stage 5).running ∧ (stage 5).mgt.hkStopped = false ∧ (stage 5).mgt.stage = 5 ∧
    ((([zeros 32, checkpoint7] : List Bytes).filter recGood).filter (fun r => getLe r 0 1 == 5 || getLe r 0 1 == 7)).getLast? = some checkpoint7 := by
  decide +kernel

theorem wit_BootStagesRunInOrder_failures : (stage 1).mgt.stage = 1 ∧ ((stage 3).mgt.stage = 3 ∧ 6 ∈ [6]) ∧
    ((stage 3).mgt.stage = 3 ∧ 6 ∉ [7] ∧ (7 ∈ [7] ∨ 1043 ∈ ([] : List Nat))) ∧ (6 ∉ ([] : List Nat) ∧ (7 ∈ ([] : List Nat) ∨ 1043 ∈ [1043])) ∧
    ((stage 4).mgt.stage = 4 ∧ ∃ k < 8, ([0, 0] : List Nat).getD k 0 < [0, 0, 0, 0, 0, 0, 0, 1].getD k 0) ∧ (stage 5).mgt.stage = 5 ∧
    ((stage 6).mgt.stage = 6 ∧
      ((stage 6).searchFails [allPass, allPass, allPass, allPass, allPass, allPass, noPass]).find? (fun d => decide (6 ≤ d)) = some 6) := by decide

/-- RECOVERY with a load of 8,193 bytes of which n are received. -/
def loading (n : Nat) : State := mgtAt { stage := 0x0E, recResult := 1, recLen := 8193, received := n }

theorem wit_RecoveryMailboxLoadsAnImage :
    (stopped.running ∧ stopped.mgt.hkStopped = true) ∧ ((stage 0x0E).running ∧ (stage 0x0E).mgt.stage = 0x0E ∧ (stage 0x0E).mgt.hkStopped = false) ∧
    (4 ≤ (zeros 4).length ∧ 32764 % 4096 + (zeros 4).length ≤ 4096 ∧ 32764 + (zeros 4).length ≤ 32768) ∧
    ((stage 0x0E).mgt.recResult ≠ 2 ∧ (stage 0x0E).mgt.recResult ≠ 3) ∧
    ((loading 0).running ∧ (loading 0).mgt.stage = 0x0E ∧ (loading 0).mgt.recResult = 1 ∧ (loading 0).mgt.received < (loading 0).mgt.recLen ∧
      8193 = min 32768 ((loading 0).mgt.recLen - (loading 0).mgt.received)) ∧
    ((loading 8193).mgt.received = (loading 8193).mgt.recLen) ∧ ((loading 8192).mgt.received ≠ (loading 8192).mgt.recLen) ∧
    (let s := mgtAt { stage := 0x0E, recResult := 2 }; s.running ∧ s.mgt.recResult = 2 ∧ s.pending = [] ∧ s.chain.held = []) := by decide

theorem wit_FusesAreBurntOnOrder :
    (let s := mgtAt { stage := 0x0F, failCause := 4 }; s.running ∧ s.mgt.hkStopped = false ∧ s.mgt.stage = 0x0F ∧ s.mgt.failCause = 4 ∧ s.nv.epoch < 15) ∧
    (let s := { mgtAt { stage := 0x0F, failCause := 4 } with nv := { epoch := 15 } }; s.running ∧ s.mgt.stage = 0x0F ∧ 15 ≤ s.nv.epoch) ∧
    (up.mgt.stage ≠ 0x0F ∨ up.mgt.failCause ≠ 4) ∧ fld (0x0500000000000000 : Word).toNat 56 8 = 5 ∧
    (up.mgt.hkStopped = false ∧ up.mgt.stage = 8 ∧ up.mgt.hkResult ≠ 1) ∧ (committing.mgt.stage ≠ 8 ∨ committing.mgt.hkResult = 1) ∧
    (up.waitsBehind .host = false ∧ (behind .host up).waitsBehind .host = true) := by decide

theorem wit_WatchdogExpiryEntersHaltSafe :
    up.running ∧ up.mgt.expired = false ∧ (mgtAt { expired := true }).mgt.expired = true ∧
    (mgtAt { expired := true, recResult := 3 }).mgt.recResult = 3 ∧ (mgtAt { expired := true }).mgt.rebooted = false ∧
    (let s := mgtAt { expired := true, rebooted := true }; s.mgt.hkStopped = false ∧ s.mgt.expired = true ∧ s.mgt.rebooted = true) ∧
    (mgtAt { hkStopped := true }).mgt.hkStopped = true := by decide

theorem wit_RegisterWritesStoreWhatTheCardSays :
    (0xF7FFF < 0xF8000 ∧ ((8 ≠ 4 ∧ 8 ≠ 8) ∨ 0xF7FFF % 8 ≠ 0)) ∧ 0xFFFF < 0x10000 ∧
    ((stage 7).running ∧ (stage 7).mgt.stage ≠ 8 ∧ 0x20000 ≤ 0xEFFF8 ∧ 0xEFFF8 < 0xF0000) ∧ (up.running ∧ up.mgt.stage = 8) := by decide

theorem wit_FrequencyOrdersAndGlides :
    (up.running ∧ up.mgt.stage = 8 ∧ up.holding = false ∧ 63 < 64) ∧
    (let s := pwAt { target := 48 }; s.glideOwner = none ∧ s.pw.slew = none ∧ s.pw.skipping = false ∧ s.pw.curStep ≠ s.pw.target) ∧
    (let s := pwAt { slew := some true, slewOf := some 3 }; s.pw.slew = some true ∧ s.pw.frozen = false ∧ s.pw.slewOf = some 3) ∧ up.pw.slew = none ∧
    (pwAt { frozen := true }).pw.frozen = true ∧ up.pw.skipping = false ∧ (pwAt { droop := 1 }).pw.skipping = true := by decide

theorem wit_ClocksSkipAndStop :
    up.running ∧ (7 < 8 ∧ bit up.pw.clkStopped 7 = false) ∧ (pwAt { tripped := 8 }).pw.tripped ≠ 0 ∧ up.pw.tripped = 0 ∧ up.mgt.hkStopped = false ∧ bit (pwAt { clkStopped := 128 }).pw.clkStopped 7 = true ∧
    up.pw.vrAlert = false ∧ up.pw.shutdown = false ∧ (pwAt { vrAlert := true }).pw.vrAlert = true := by decide

def marginState : State := { up with en := { up.en with marginDue := true } }

theorem wit_RailsAreSearchedAndMeasured :
    marginState.running ∧ marginState.mgt.stage = 8 ∧ marginState.chain.check = none ∧ marginState.en.marginDue = true ∧
    (∀ c < 64, marginState.inState c [.checking, .starting, .running, .stopping] = false) ∧
    marginState.searchFails [raised, lowered, allPass, allPass, allPass, allPass, allPass, allPass] = [] ∧ (Activity.mk 7 47 63 .hbmByte 5).cwy < 64 ∧ up.en.openPj ≤ up.en.unattrPj := by decide

theorem wit_PowerStaysUnderItsCap : up.running ∧ up.mgt.stage = 8 ∧ up.holding = false ∧
    (let s := { up with en := { up.en with hints := [(0, { level := 1, start := 0, stop := 9 })] } }
     tget s.en.hints 0 = some { level := 1, start := 0, stop := 9 }) ∧ tget up.en.hints 1 = none := by decide

theorem wit_ThermalPathMeasuresAndShutsDown :
    up.running ∧ (47 < 48 ∧ bit up.thm.diodeBad 47 = false ∧ (([] : List Int).getD 47 0 < -40000 ∨ 150000 < (List.replicate 48 150001 : List Int).getD 47 0)) ∧
    (let s := { up with thm := { node := [(383, 300000)] } }; s.running ∧ (7, 47) ∈ allNodes ∧
      1000 * (s.thmf 16 8 : Int) ≤ s.nodeTemp 7 47 ∧ s.thm.shut = false) ∧
    (let s := pwAt { shutdown := true }; s.pw.shutdown = true ∧ s.pw.shutEnded = false) ∧ up.pw.shutdown = false := by decide

/-! ### A running body -/

/-- Carriageway 0 RUNNING in a body, as run says; and with a Bay 0 of Span 0 as given. -/
def bodyRun (r : Run) : State :=
  { up with cwys := [(0, { life := { state := .running, enable := true }, run := { r with inBody := true } })] }
def body : State := bodyRun {}
def bodyBay (b : Bay) : State := { body with bays := [(0, b)] }
def bodyGir (g : Girder) : State := { body with girders := [(0, g)] }
def readyPier : Bay := { piers := [(0, { state := 2 })] }

/-- An op word of Table 6.8 and 6.10: its class and the fields at their lowest bits. -/
def word (cls : Nat) (fs : List (Nat × Nat)) : Nat := (fs.map (fun f => f.2 * 2 ^ f.1)).sum + cls * 2 ^ 102
/-- The op buffer of die 0 of Carriageway 0 holds w at the head of its stream. -/
def headed (w : Nat) (s : State) : State := s.modRun 0 (fun r => { r with buf := [(0, 0, [w])] })
/-- A Girder in a routine. -/
def gRun : GRun := { cwy := 0, layer := 0, start := 0, len := 9 }
def inRoutine : State := bodyGir { run := some gRun }

theorem wit_BeatsStartOnReadyPiers :
    (let s := headed (word 1 [(68, 1), (63, 31), (48, 32767), (40, 255)]) (bodyBay readyPier)
     s.running ∧ s.issues op0 (isBeat op0 0 1 31 32767 255) = true ∧ maskPiers 1 = [(0, 0)] ∧ s.pstate (bayNo 0 0) (s.phys (bayNo 0 0) 0) = 2) ∧
    (let s := headed (word 1 [(68, 1)]) body
     s.issues op0 (isBeat op0 0 1 0 0 0) = true ∧ s.pstate (bayNo 0 0) (s.phys (bayNo 0 0) 0) ≠ 2) ∧
    (let s := headed (word 2 [(68, 3)]) (bodyBay readyPier)
     s.issues op0 (isBallast op0 2 0 3) = true ∧ (maskPiers 3).any (fun e => s.pstate (bayNo 0 0) (s.phys (bayNo 0 0) e.2) == 2) = true) ∧
    (headed (word 3 [(80, 15), (75, 31)]) body).issues op0 (isWseg op0 0 15 31 0) = true := by decide

theorem wit_UnissuedCommandsHaveNoEffect : up.running ∧ body.atHead op0 (isCombine op0 0 0) = false ∧
    (let s := headed (word 5 [(100, 2)]) body
     let op := { op0 with pred := 2 }; s.atHead op (isCombine op 0 0) = true ∧ s.predTrue op = false) ∧
    up.girRuns gi0 = false ∧ inRoutine.girRuns { gi0 with pred := 0 } = true := by decide

/-- A beat in flight; with every code delivered; a contribution due in cycle 5. -/
def beat0 : Beat := { start := 0, cwy := 0, layer := 0, slot := 0, u := 0, aslot := 0, drive := [], ext := [], clips := 0 }
def beatFull : Beat := { beat0 with code := (List.range 528).map (fun j => (j, 0)) }
def contrib5 : Contrib := { due := 5, slot := 31, aslot := 0, cwy := 0, layer := 0, vals := [1] }

theorem wit_ConversionsFillBeatsAndAreJudged :
    (pwAt { clkStopped := 1 }).dieOn 0 = false ∧
    (let s := bodyBay { beats := [(0, [beatFull, beat0])] }
     s.dieOn 0 = true ∧ (tgetD (s.bay (bayNo 0 0)).beats 0 []).findIdx? (fun b => (tget b.code 7).isNone) = some 1 ∧
      (tgetD (s.bay (bayNo 0 0)).beats 0 [])[1]? = some beat0 ∧
      (tgetD (s.bay (bayNo 0 0)).beats 0 []).findIdx? (fun b => b.full && !b.verdict) = some 0 ∧
      (tgetD (s.bay (bayNo 0 0)).beats 0 [])[0]? = some beatFull) ∧
    (tgetD (body.bay (bayNo 0 0)).beats 0 []).findIdx? (fun b => (tget b.code 7).isNone) = none ∧
    (loOf 0 * 2 ^ 10 ≤ (-131072 : Int) ∧ 8 * (-131072 : Int) ≤ (8 * hiOf 0 + 7) * 2 ^ 10) := by decide +kernel

/-- A flit of a partial sum that arrives in cycle 9 as flit f. -/
def inbound9 (f : Nat) : Inbound := { due := 9, f := f, data := zeros 64 }
def combine31 : Combine := { slot := 31, start := 2, cwy := 0, layer := 0 }

theorem wit_SlotsAddWhatIsDue :
    (pwAt { clkStopped := 1 }).dieOn 0 = false ∧
    (let s := bodyBay { contribs := [contrib5] }
     s.running ∧ s.dieOn 0 = true ∧ (s.bay (bayNo 0 0)).beats = [] ∧ (s.bay (bayNo 0 0)).contribs = [contrib5] ∧ contrib5.due = 5 ∧ contrib5.slot < 32 ∧
      (s.bay (bayNo 0 0)).clears = [] ∧ (s.bay (bayNo 0 0)).lastRead = none ∧ contrib5.aslot ≠ 0xFFFF) ∧
    (((bodyBay { clears := [(31, 5)] }).bay (bayNo 0 0)).clears = [(31, 5)] ∧ ((bodyBay { clears := [(31, 5)] }).bay (bayNo 0 0)).contribs = []) ∧
    (((bodyBay { lastRead := some (31, 5) }).bay (bayNo 0 0)).lastRead = some (31, 5) ∧ ((bodyBay { lastRead := some (31, 5) }).bay (bayNo 0 0)).log.cyc < 5) ∧
    (headed (word 5 [(79, 31)]) body).issues op0 (isCombine op0 0 31) = true ∧
    (let s := bodyBay { combine := some combine31, inbound := [inbound9 31] }
     (s.bay (bayNo 0 0)).combine = some combine31 ∧ s.dues (bayNo 0 0) 9 = [] ∧ (s.cwy combine31.cwy).flights = [] ∧
      (s.bay (bayNo 0 0)).inbound.find? (fun x => x.f == 31 && x.due == 9) = some (inbound9 31) ∧ 31 < 32 ∧
      (s.bay (bayNo 0 0)).inbound.find? (fun x => x.f == 34 && x.due == 9) = none) ∧
    ((bodyBay { inbound := [inbound9 34] }).bay (bayNo 0 0)).inbound.find? (fun x => x.f == 34 && x.due == 9) = some (inbound9 34) ∧
    (body.bay (bayNo 0 0)).combine = none := by decide

/-- Carriageway 0's body began in cycle 99: an op of cycle 0 issues in cycle 99. -/
def at99 (b : Bay) (w : Nat) : State := (headed w (bodyBay b)).modRun 0 (fun r => { r with start := 99 })

theorem wit_SlotsClearAndLeaveAsBlocks :
    (let s := at99 {} (word 4 [(77, 31)])
     s.running ∧ s.issues op0 (isSlot op0 0 0 31) = true ∧ (s.bay (bayNo 0 0)).readIn (s.opTime op0) ≠ some 31 ∧ (s.bay (bayNo 0 0)).log.cyc ≠ s.opTime op0) ∧
    (let s := at99 { log := { cyc := 99, adds := [{ contrib5 with slot := 30 }] } } (word 4 [(77, 31)])
     (s.bay (bayNo 0 0)).log.cyc = s.opTime op0 ∧ (s.bay (bayNo 0 0)).log.adds.filter (fun c => c.slot == 31) = []) ∧
    (let s := at99 { lastRead := some (31, 99) } (word 4 [(77, 31)]); (s.bay (bayNo 0 0)).readIn (s.opTime op0) = some 31) ∧
    (let s := at99 { clears := [(31, 99)] } (word 4 [(82, 1), (77, 31), (62, 20479)])
     s.issues op0 (isDrain op0 0 31 20479) = true ∧ (s.bay (bayNo 0 0)).portBusy 99 = false ∧ (s.bay (bayNo 0 0)).log.cyc ≠ 99 ∧
      (s.bay (bayNo 0 0)).cycleAdds (s.bayMode (bayNo 0 0)) 99 = [] ∧ s.dues (bayNo 0 0) 98 = []) ∧
    (at99 {} (word 4 [(82, 2), (77, 31), (76, 1), (73, 7), (52, 1572863)])).issues op0 (isSend op0 0 31 (.sram 7 1572863)) = true ∧
    (at99 {} (word 4 [(82, 2), (77, 31), (73, 5), (65, 255)])).issues op0 (isSend op0 0 31 (.bay 5 255)) = true ∧
    (((at99 { sendAt := some 65 } 0).bay (bayNo 0 0)).portBusy 99 = true ∧ ((at99 { sendAt := some 64 } 0).bay (bayNo 0 0)).portBusy 99 = false) := by decide

theorem wit_GirderRoutinesRunAndReportErrors :
    (let s := headed (word 6 [(86, 63), (76, 1023), (44, 7), (12, 9)]) body
     s.running ∧ s.issues op0 (isGirder op0 63 1023 7 9) = true ∧ (s.girder (girNo 0 63)).run = none) ∧
    (let s := headed (word 6 []) inRoutine
     s.issues op0 (isGirder op0 0 0 0 0) = true ∧ (s.girder (girNo 0 0)).run ≠ none ∧ (s.girder (girNo 0 0)).run = some gRun ∧ s.girRuns gi0 = true) := by decide

theorem wit_VectorInstructionsComputeEachLane : inRoutine.running ∧
    (bodyGir { run := some gRun, pred := [(7, true)] }).girRuns { gi0 with pred := 7 } = true := by decide

theorem wit_RequantiseAndTopKWriteTheirLists : inRoutine.girRuns gi0 = true ∧
    (let r : ReqParams := { target := .int8, input := .acc [] [], h := 0, first := true, slot := 0, seg := none, passTo := none }
     r.target = .int8 ∧ r.passTo = none) ∧ (1 ≤ 64 ∧ 64 ≤ 64) := by decide

theorem wit_DeckAndScalarInstructions : inRoutine.girRuns gi0 = true ∧ saluWord .and 0 6 3 = some 2 := by decide

/-- Carriageway 0's carve-out begins at granule g. -/
def carveAt (g : Nat) (s : State) : State := s.setWord (cwyBase 0 + 0x100 + 8 * 6) g
/-- One flit under way for Carriageway 0. -/
def flying (x : Flight) (s : State) : State := s.modCwy 0 (fun y => { y with flights := [x] })
def flight0 : Flight := { cyc := 5, src := some (.sram 0), dst := .deck 64, lat := 40 }

theorem wit_TransfersMoveTheirBytes :
    (let s := headed (word 7 [(87, 0), (66, 20479), (63, 7), (61, 1), (40, 1572863), (28, 4095)]) body
     s.running ∧ s.issues op0 (isMove op0 (.deck 0 20479) (.sram 7 1572863) 4095) = true) ∧
    (let s := flying flight0 body
     (s.cwy 0).flights = [flight0] ∧ flight0.src = some (.sram 0) ∧ flight0.cyc + flight0.lat ≤ 45 ∧ flight0.dst = .deck 64 ∧ memWf s.deck = true) ∧
    ({ flight0 with dst := .sram 64 }.dst = .sram 64 ∧ { flight0 with dst := .port 7 34 }.dst = .port 7 34 ∧ memWf body.sram = true ∧
      (∀ a f, flight0.dst ≠ .port a f) ∧ (∀ d m r g f, flight0.dst ≠ .link d m r g f)) ∧
    (let s := headed (word 8 [(59, 8589934591), (26, 4095)]) body
     s.issues op0 (isHbm op0 8 8589934591 0 4095) = true ∧ ¬ 0 < belowWindow 8589934591 4095) ∧
    (let s := headed (word 8 [(38, 2097151), (26, 2)]) body
     s.issues op0 (isHbm op0 8 0 2097151 2) = true ∧ belowWindow 0 2 = 2 ∧ hbmIn (s.carveBase 0 + 64 * 0) (64 * 2) = true ∧ 1 < belowWindow 0 2) ∧
    (headed (word 9 [(26, 2)]) body).issues op0 (isHbm op0 9 0 0 2) = true ∧
    (let s := carveAt 196607 (headed (word 9 [(59, 32767), (26, 2)]) body)
     s.issues op0 (isHbm op0 9 32767 0 2) = true ∧ 0 < belowWindow 32767 2 ∧ hbmIn (s.carveBase 0 + 64 * 32767) (64 * 2) = false) ∧
    (let s := flying { flight0 with dst := .hbm (2 ^ 30) } body
     s.containerHit (2 ^ 30) 64 = [] ∧ (s.bytesAt (.sram 0)).length = 64 ∧ memWf s.hbm = true) := by
  refine ⟨by decide, by decide, ⟨by decide, by decide, by decide, ?_, ?_⟩, by decide, by decide,
    by decide, by decide, by decide⟩
  · intro a f h; cases h
  · intro d m r g f h; cases h

theorem wit_TransfersMoveTheirBytes_container :
    (let s := flying { flight0 with dst := .hbm 0 } { body with hbm := memPut [] 24 [1] }
     s.containerHit 0 64 ≠ [] ∧ (s.bytesAt (.sram 0)).length = 64) := by decide

/-- A request of Carriageway 0 and its admission record. -/
def par0 : Params := { ring := 0, dindex := 0, tag := zeros 8, prompt := 0, promptLen := 20, maxNew := 4, stops := [],
                        sampled := false, temp := 0, topk := 0, seed := [], drawn := false, draft := false, buf := 0 }
def req0 : Req := { cwy := 0, tenant := 0, seq := 0, par := par0 }
def adm0 : Adm := { slot := 1023, phase := 1, handle := 0, first := 0, tokens := 255 }
def withReq (q : Req) (s : State) : State := { s with reqs := [(0, q)] }

/-- A Carriageway of two KV layers from layer 1 and one head on a KV ring of one position. -/
def kvOf (s : State) : State := (s.setWord (cwyBase 0 + 0x48) (2 ^ 32 + 2 * 2 ^ 40 + 2 ^ 48)).setWord (cwyBase 0 + 0x50) 1
def paused0 : Req := { req0 with phase := .paused, ttl := 3, ttlFrom := 100 }
def moving0 : Req := { req0 with phase := .paused, copying := true, copy := [(2, 0)], restoring := true, restore := [(1, 0)], newOf := [(1, 9)], farOf := [(1, 4)] }
def farState : State :=
  { withReq moving0 body with cwys := [(0, { life := { state := .running, enable := true }, kv := { far := [(0, 1, 0, 0, zeros 16)] } })] }
/-- farState on a KV ring of two positions, of which this member holds the first. -/
def farRing : State := farState.setWord (cwyBase 0 + 0x50) 2
def open0 : OpenBlk := { handle := 0, page := 0, blk := 0 }
def staged0 : Flight := { cyc := 5, src := none, dst := .stage 1023 254 2 0 3, lat := 40, data := zeros 64 }

theorem wit_KvPagesAndFarBlocksMove :
    (let s := headed (word 10 [(82, 1023), (62, 1048575), (54, 2), (51, 7), (30, 2097151)]) body
     s.running ∧ s.issues op0 (isKvRd op0 1023 1048575 2 7 2097151) = true ∧ s.admReq 0 1023 = none) ∧
    (let op := { op0 with layer := 2 }
     let s := headed (word 11 [(92, 2), (82, 1023), (74, 254)]) (kvOf (bodyRun { adm := [adm0] }))
     s.issues op (isKvStage op 1023 254 0 0) = true ∧ (s.cwy 0).run.adm.find? (fun a => a.slot == 1023) = some adm0 ∧ 254 < adm0.tokens ∧
      (s.kvBlock 0 2 0).isSome = true ∧ s.holds 0 ((adm0.first + 254) / 16) = true) ∧
    (let s := headed (word 11 [(82, 1023), (74, 255)]) (kvOf (bodyRun { adm := [adm0] }))
     s.issues op0 (isKvStage op0 1023 255 0 0) = true ∧ (s.cwy 0).run.adm.find? (fun a => a.slot == 1023) = some adm0 ∧ adm0.tokens ≤ 255) ∧
    (((flying staged0 body).cwy 0).flights = [staged0] ∧ staged0.src = none ∧ staged0.cyc ≤ 5 ∧ staged0.dst = .stage 1023 254 2 0 3 ∧
      staged0.crc = none ∧ staged0.data.length = 64 ∧ 3 < 4) := by decide

theorem wit_KvPagesAndFarBlocksMove_lapse :
    (let s := { withReq paused0 body with pw := { body.pw with refTicks := 300100 } }
     s.running ∧ s.req 0 = some paused0 ∧ paused0.phase = .paused ∧ paused0.isComp = false ∧ paused0.resume = none ∧ paused0.acting = none ∧
      paused0.ttlFrom + 100000 * paused0.ttl ≤ s.pw.refTicks ∧ s.inState 0 [.running, .stopping] = true ∧ (s.cwy 0).run.inBody = true) ∧
    (let s := (withReq paused0 body).modRun 0 (fun r => { r with inBody := false })
     s.inState 0 [.running, .stopping] = true ∧ (s.cwy 0).run.inBody = false ∧ (s.cwy 0).key.own = none) ∧
    (let s := withReq paused0 (bodyRun {})
     let t := s.modCwy 0 (fun y => { y with run := {}, key := { own := some {}, kind := 2 } })
     t.inState 0 [.running, .stopping] = true ∧ (t.cwy 0).run.inBody = false ∧ 2 ≤ (t.cwy 0).key.kind) ∧
    (let s := withReq paused0 { up with cwys := [(0, { life := { state := .stopped } })] }; s.inState paused0.cwy [.stopped] = true) ∧
    (let s := withReq paused0 { up with cwys := [(0, { life := { state := .starting } })] }; s.inState paused0.cwy [.starting] = true) ∧
    ((withReq paused0 body).pw.refTicks < paused0.ttlFrom + 100000 * paused0.ttl) := by decide

theorem wit_KvPagesAndFarBlocksMove_far :
    (farState.running ∧ farState.req 0 = some moving0 ∧ moving0.copying = true ∧ farState.moves 0 = true ∧ req0.copying = false ∧
      moving0.restoring = true ∧ moving0.lost = false ∧ (1, 0) ∈ moving0.restore ∧ farState.holds 0 1 = true ∧
      (farState.cwy 0).kv.far.find? (fun e => e.1 == 0 && e.2.1 == 1 && e.2.2.1 == 0) = some (0, 1, 0, 0, zeros 16) ∧
      tget moving0.newOf 1 = some 9 ∧ tget moving0.farOf 1 = some 4 ∧ req0.restoring = false) ∧
    (farRing.moves 0 = true ∧ farRing.holds 0 1 = false) ∧
    (let s := { body with cwys := [(0, { kv := { open_ := [open0, { open0 with writing := true }] } })] }
     (s.cwy 0).kv.open_[1]? = some { open0 with writing := true } ∧ (s.cwy 0).kv.open_[0]? = some open0 ∧ open0.writing = false) := by decide

theorem wit_PlSendQueuesTheTransfer :
    (let s := headed (word 12 [(89, 5), (74, 32767), (66, 255), (50, 65535), (29, 1572863), (17, 4095)]) body
     s.running ∧ s.issues op0 (isPlSend op0 5 32767 255 65535 1572863 4095) = true ∧ s.outPort 0 5 = some 5) := by decide

/-- The word of a WAIT for one arrival. -/
def wait1 (rxbuf tag : Nat) : Nat := word 13 [(90, 1), (82, rxbuf), (66, tag)]
/-- A Carriageway that waits for one arrival, at HBM address 0 a container whose directory gives die 0 a stream of one op. -/
def fetchable : State := { body.modCwy 0 (fun y => { y with key := { ready := true } }) with hbm := memPut (memPut [] 88 [0, 1]) 260 [1, 0, 0, 0, 0, 2] }

theorem wit_WaitPointsAndFetchesOfStreams : fetchCrosses 0 0 = true ∧ 4 * 0 < (fetchable.blockWords 0 0 0).length ∧ 
    (let s := (headed (wait1 255 65535) (bodyRun { start := 16 })).modCwy 0 (fun y => { y with arrivals := [ArrRec.mk 0 255 65535 (some 8) 0] })
     s.running ∧ s.issues op0 (isWait op0 [{ rxbuf := 255, tag := 65535 }]) = true ∧ (s.cwy 0).run.wait = none ∧
      s.arrived 0 { rxbuf := 255, tag := 65535 } = some 8 ∧ 8 + 8 ≤ s.opTime op0) ∧
    (let s := headed (wait1 0 0) body
     s.issues op0 (isWait op0 [{ rxbuf := 0, tag := 0 }]) = true ∧ (s.cwy 0).run.wait = none ∧ s.arrived 0 { rxbuf := 0, tag := 0 } = none ∧
      (passOp op0 s).waitPoint 0 0 = []) ∧
    (let s := bodyRun { wait := some (7, []) }; (s.cwy 0).run.wait = some (7, []) ∧ ∀ a ∈ ([] : List Arrival), (s.arrived 0 a).isSome = true) ∧
    (fetchable.running ∧ fetchable.fetchDue 0 0 0 = true ∧ fetchable.fetchDue 0 0 1 = false) := by decide


/-! ### Keystones, orders and rings -/

/-- Carriageway 0 in state x with a Keystone exchange k; on a torus of two devices this one stands at coordinate `at`, the lead
at 0; a ring in state r with the descriptor d waiting. -/
def keyAt (x : CState) (k : Key) : State := { up with cwys := [(0, { life := { state := x, enable := true }, key := k })] }
def pair (me : Nat) (s : State) : State := (s.setWord 0xD0000 (2 ^ 25 + me * 2 ^ 10)).setWord 0xD1000 (2 ^ 25)
def vote0 : Vote := {}
def idle0 : Release := { good := true, idle := true }

/-- A takeover of physical Pier 3 of Bay 0 whose spare is complete. -/
def takeover0 : PendFence := { unit := .pier 0 0 3, spare := some 16, spareDone := true }

theorem wit_KeystonesFormVotes :
    (let s := headed (word 14 []) (bodyRun { ended := [1, 2] })
     s.running ∧ s.issues op0 (isKeystone op0) = true ∧ ∃ d < 8, d ≠ op0.die ∧ d ∉ (s.cwy 0).run.ended) ∧
    (let s := headed (word 14 []) (bodyRun { ended := [1, 2, 3, 4, 5, 6, 7] })
     s.issues op0 (isKeystone op0) = true ∧ ∀ d < 8, d = op0.die ∨ d ∈ (s.cwy 0).run.ended) ∧
    (let s := bodyRun { leaving := true }; (s.cwy 0).run.inBody = true ∧ (s.cwy 0).run.leaving = true) ∧
    (let s := bodyRun { deadDies := [7], ended := [0, 1, 2, 3, 4, 5, 6] }
     (s.cwy 0).run.deadDies ≠ [] ∧ ∀ d < 8, d ∈ (s.cwy 0).run.deadDies ∨ d ∈ (s.cwy 0).run.ended) ∧
    (let s := keyAt .running { idle := true }; (s.cwy 0).key.idle = true ∧ (s.cwy 0).key.own = none ∧ s.inState 0 [.running, .stopping] = true) ∧
    (let s := { keyAt .stopping { barrier := true } with ras := { pend := [takeover0] } }
     (s.cwy 0).key.barrier = true ∧ (s.cwy 0).key.own = none ∧ s.inState 0 [.running, .stopping] = true ∧
      s.ras.pend.any (fun f => s.unitUsed 0 f.unit && s.inBarrier f && !f.spareDone && f.spare.isSome) = false) ∧
    (let s := { up with cwys := [(0, { w := { holdLayer := 254, wstate := 4 } })] }; (s.cwy 0).w.holdLayer ≠ 255 ∧ (s.cwy 0).w.wstate = 4) := by
  decide

/-- A vote frame of member 1 for member 0 and a release frame of member 0 for member 1, under the key of a job
that has been given none. -/
def wireV : Bytes := leBytes 56 0xafee1b97074ef9b6caafd6446cd77ce661615b0151f3c280ef6d3656638dec0127c3636f3aa388a600000000000000000001000000000002 ++
  leBytes 56 0xbf2330363cc1b94fce4c6369cf8103d9d887c27ff8bfd22e85947de66d9a9cd1096cb93971d4d877a939429d2c043fee941a47d7c419b299 ++
  leBytes 56 0xc2b3a13c76c49983a2e714a6381f37277ef91348431fa6787ffeff263d9275edd547b590e5095d8e039684262a4cb3ae5572e6171e31fae5 ++
  leBytes 56 0x2433e9e22df059ee753f9bf610382ec1596ca1356332029973f720b3052f0fe849ad96c94d19c8a6cf3e05ddb6429792ec7cfbe399ba2fd ++
  leBytes 56 0x6a4a22ad69c9ff2b3a60be452dcd57aeb3669bf7bbd37ce3dffe565ec5101046b6087b6428e436f87f4bd9fb06ffbd408d48c0f5a7552a3d ++
  leBytes 56 0x3c11ef354c1221235c6fea34fd9ed914c713ac98f2241f25d263c37aed22590dcab208d3c7ec0809391cec1bf9902ec3c1f8d05be02d29e3 ++
  leBytes 56 0x98575a4645cdfe704d1cba901f722d73d6c6f0793a04e3ea6a72c815aeb5c6c5c01bbf3640847b85538765b349cd751c2541b75b4c48b06e ++
  leBytes 56 0xf8286996b27833764cb9fe280b457ba1605c4b2abab02b7b72eaac3c13a79a6688e0b9106c4d95b4259fe2a164a20f6ec02b7a7cb485523e
def wireR : Bytes := leBytes 56 0x7be14a4d28b14add8e3506758ef5a2d1742aa637ca036072189df3bad3c54e076e6b604d3d40a7ce00000000000000000000000100000003 ++
  leBytes 56 0xad1d5e54661cbce62da6cec0b049afbca0679141e0ac9560372da821738fc4d01f3a0cabe31d7c61307fbb81e1cb4147f7360c472459e841 ++
  leBytes 56 0xa86872e2964214a186d39c2c34e8fc37b1f4d866bbc26243126017930eb78763f3e03728abe10aba29fc2ce5c5bdb05f24da856ecd77faab ++
  leBytes 56 0xc65fa306e507faf51ee5544bc0788b76662452fb29f55eac70600a625e2262f3cadd507183b558bf34ed57f3bdeb21bb79d505a837f50de5 ++
  leBytes 56 0xa740795078526c7d34e4c0a953ad592ac7bfc1826edfd64e2601dc09e3568be9bd43ee7c5aa090142ebed72878d56aa9e126869c2410b7b0 ++
  leBytes 56 0xbe6ee0eaa7f80eca8642f37e9b6b324fd3724c7414d5690a2c8e438aa7ddc9ac47a81b307d585c9566c71b61767253461eafb6e893baf6de ++
  leBytes 56 0x76bc62de068cfb958e2c51ac1fe610a63ecf8e162fac9d868bd40e732c28e2a038a0fa0d9cb7bd6aa7f4c7769de9ea5fcb2d401272539c66 ++
  leBytes 56 0x1f1693fdeda262eb69a1a715970b07c9bc45c1b4a69b7dc67797db930d84a3d57985a37e3f9f296971e7dd0ef9b9442b4c86db8a35515569
def keyFrame (w : Bytes) : KeyFrame := { port := 0, wire := w, lockLost := none }
def upPort (s : State) : State := { s with ports := [(0, { state := 2 })] }

set_option maxRecDepth 200000 in
theorem wit_VotesGatherOrTimeOut_frame :
    (let s := upPort (pair 0 (keyAt .running {}))
     (openKey 0 (keyFrame wireV) s).1.2.isSome = true ∧ s.keyStream 0 2 1 (openKey 0 (keyFrame wireV) s).1.1 = true ∧
      s.keyStream 0 2 0 (openKey 0 (keyFrame wireV) s).1.1 = false ∧ (openKey 0 (keyFrame []) s).1.2 = none) := by decide +kernel

set_option maxRecDepth 200000 in
theorem wit_ReleasesTakeEffect_frame :
    (let s := upPort (pair 1 (keyAt .running { sent := true }))
     (openKey 0 (keyFrame wireR) s).1.2.isSome = true ∧ s.keyStream 0 3 0 (openKey 0 (keyFrame wireR) s).1.1 = true ∧
      fLast (openKey 0 (keyFrame wireR) s).1.1 = false ∧ (openKey 0 (keyFrame []) s).1.2 = none) := by decide +kernel

theorem wit_VotesGatherOrTimeOut :
    (let s := upPort (pair 0 (keyAt .running {}))
     s.running ∧ (s.port (keyFrame wireV).port).state = 2 ∧ 1 ∈ s.children 0 ∧ (s.cwy 0).key.sent = false ∧ 1 ∉ (s.cwy 0).key.kidsDone ∧ s.inState 0 [.running, .stopping] = true ∧
      (s.cwy 0).key.own = none) ∧
    (let s := keyAt .running { own := some vote0 }
     (s.cwy 0).key.own.isSome = true ∧ (s.cwy 0).key.release = none ∧ (s.cwy 0).life.state = .running) ∧ (up.cwy 0).key.own = none := by decide

theorem wit_ReleasesTakeEffect :
    (let s := upPort (pair 1 (keyAt .running { sent := true }))
     s.running ∧ s.isLead 0 = false ∧ s.parentOf 0 (s.self 0) = some 0 ∧ (s.cwy 0).key.sent = true ∧ (s.port (keyFrame wireR).port).state = 2 ∧
      tget (s.cwy 0).key.relFrames 0 = none ∧ (s.cwy 0).key.relLast = none ∧
      s.route 0 (s.here 0) (s.memberCoord 0 0) = some 3 ∧ (s.outPort 0 3).isSome = true) ∧
    (let s := keyAt .starting { release := some idle0 }
     s.isLead 0 = true ∧ (s.cwy 0).key.release = some idle0 ∧ (s.cwy 0).life.state = .starting ∧ idle0.idle = true ∧ idle0.holdGranted = false ∧
      idle0.adm = [] ∧ s.liveReqs 0 = [] ∧ (s.cwy 0).kv.open_ = []) ∧
    (let s := { up with cwys := [(0, { life := { state := .starting }, ramped := true })] }
     (s.cwy 0).life.state = .starting ∧ s.isLead 0 = true ∧ s.rampedIn 0 = true ∧ (s.cwy 0).key.release = none ∧ s.pw.curStep = s.pw.target ∧
      ∀ m < s.members 0, m = s.self 0 ∨ m ∈ ([] : List Nat)) ∧
    (let s := pair 0 (keyAt .starting {}); ∃ m < s.members 0, m ≠ s.self 0 ∧ m ∉ ([] : List Nat)) ∧
    (let s := { keyAt .starting {} with pw := { up.pw with target := 47 } }; (s.cwy 0).life.state = .starting ∧ s.pw.curStep ≠ s.pw.target) := by
  decide

theorem wit_BodiesStartAndBaysStayWarm :
    (let s := { up with cwys := [(0, { life := { state := .running }, key := { ready := true }, run := { gapFrom := 9, gap := 2 }, ramped := true })] }
     s.running ∧ s.mayStart 0 137 = true ∧ s.mayStart 0 136 = false) ∧
    (let s := { keyAt .starting {} with cwys := [(0, { life := { state := .starting }, warm := [0] })], bays := [(0, readyPier)] }
     (s.cwy 0).run.inBody = false ∧ (s.cwy 0).life.state = .starting ∧ 0 ∈ (s.cwy 0).warm ∧ (s.freePier 0 99).isSome = true ∧ 1 ∉ (s.cwy 0).warm) ∧
    (let s := bodyRun { wait := some (7, []) }; (s.cwy 0).run.wait ≠ none ∧ (s.cwy 0).run.inBody = true) ∧
    ((body.cwy 0).run.inBody = true ∧ (body.cwy 0).run.wait = none) ∧
    (((keyAt .stopped {}).cwy 0).run.inBody = false ∧ ((keyAt .stopped {}).cwy 0).life.state = .stopped) ∧
    ((up.cwy 0).run.inBody = false ∧ (up.cwy 0).life.state = .disabled ∧ (up.cwy 0).key = {}) := by
  decide

/-- READY with a check of kind k running that will end with v. -/
def checking (k : CheckKind) (v : Nat) : State := { up with chain := { check := some { kind := k, path := .host, verdict := v } } }
/-- The same for an order that a fleet order has superseded; and with the words k locked by an order that came first. -/
def muted : State := { up with chain := { check := some { kind := .enable 3, path := .host, verdict := 0, mute := true } } }
def lockedAt (l : List Nat) : State := { up with chain := { locked := l } }

theorem wit_LifecycleOrdersMoveTheCarriageway :
    (up.running ∧ up.mgt.stage = 8 ∧ up.holding = false ∧ 63 < 64 ∧ (up.cwy 63).life.state = .disabled) ∧
    ((keyAt .running {}).holding = false ∧ ((keyAt .running {}).cwy 0).life.state = .running) ∧ ((keyAt .starting {}).cwy 0).life.state = .starting ∧
    ((keyAt .stopped {}).cwy 0).life.state = .stopped ∧
    ((checking (.enable 3) 0).running ∧ (checking (.enable 3) 0).chain.held = [] ∧
      (checking (.enable 3) 0).chain.check = some { kind := .enable 3, path := .host, verdict := 0 }) ∧
    (checking (.enable 3) 0x61).chain.check = some { kind := .enable 3, path := .host, verdict := 0x61 } ∧
    (muted.chain.check.map (fun k => (k.kind, k.path, k.mute)) = some (.enable 3, .host, true)) := by decide

theorem wit_GrantsAreWrittenOnlyWhileDisabled :
    (up.running ∧ up.mgt.stage = 8 ∧ up.holding = false ∧ 63 < 64 ∧ 15 < 16 ∧ (up.cwy 63).life.state = .disabled ∧ memWf up.hbm = true ∧ 5 / 2 ^ 21 ∉ up.host.prot ∧ grantOff 63 15 ∉ up.chain.locked) ∧
    (grantOff 63 15 ∈ (lockedAt [grantOff 63 15]).chain.locked ∧ (lockedAt [grantOff 63 15]).holding = false) ∧
    ((keyAt .stopped {}).mgt.stage = 8 ∧ (keyAt .stopped {}).holding = false ∧ ((keyAt .stopped {}).cwy 0).life.state ≠ .disabled) ∧
    (up.running ∧ (64 ≤ 64 ∨ 16 ≤ 16) ∧ (stage 7).running ∧ (stage 7).mgt.stage ≠ 8) ∧
    ((checking (.enable 3) 0).mgt.stage = 8 ∧ (checking (.enable 3) 0).holding = true ∧ (checking (.enable 3) 0).checked ≠ some 2) := by decide

theorem wit_TenantsBindAndUnbind :
    (up.running ∧ up.mgt.stage = 8 ∧ up.holding = false ∧ 1023 < 1024 ∧ (up.tenant 1023).bound = false ∧ (up.cwy (up.tenCwy 1023)).life.state = .disabled) ∧
    (let s := keyAt .running {}; s.holding = false ∧ (s.tenant 0).bound = false ∧ (s.cwy (s.tenCwy 0)).life.state ≠ .disabled) ∧
    (let s := { keyAt .running {} with tenants := [(0, { bound := true })] }
     s.mgt.stage = 8 ∧ s.holding = false ∧ (s.tenant 0).bound = true ∧ (s.tenant 0).unbinding = false ∧ s.inState (s.tenCwy 0) [.running, .stopping] = true) ∧
    (let s := { keyAt .stopped {} with tenants := [(0, { bound := true })] }
     (s.tenant 0).bound = true ∧ (s.tenant 0).unbinding = false ∧ s.inState (s.tenCwy 0) [.running, .stopping] = false) ∧
    ((checking (.bind 9) 0x61).chain.held = [] ∧ (checking (.bind 9) 0x61).chain.check = some { kind := .bind 9, path := .host, verdict := 0x61 }) := by decide

/-- Ring r as x, its rings of 64 entries in host memory; tenant 0 is bound. -/
def ringSt (r : Nat) (x : Ring) : State :=
  let s := { up with tenants := [(0, { bound := true })], host := { up.host with rings := [(r, x)] } }
  ((s.setWord (0x14000 + 0x20 * r + 8) (6 * 2 ^ 26 + 6 * 2 ^ 31 + 2 ^ 36)).setWord (0x14000 + 0x20 * r + 16) (2 ^ 24)).setWord (0x14000 + 0x20 * r + 24) (2 ^ 12)

theorem wit_RingsAndDoorbellsFollowTheirRules :
    (let s := ringSt 1087 {}; s.running ∧ 1087 < 1088 ∧ s.holding = false ∧ (s.ring 1087).state = 0 ∧ s.ringBad 1087 = false) ∧
    (up.holding = false ∧ (up.ring 1087).state = 0 ∧ up.ringBad 1087 = true) ∧ ((ringSt 0 { state := 1 }).holding = false ∧ ((ringSt 0 { state := 1 }).ring 0).state = 1) ∧
    (((ringSt 0 { state := 2 }).ring 0).state = 2 ∧ ((ringSt 0 { state := 2 }).ring 0).outstanding = 0) ∧ ((ringSt 0 { state := 3 }).ring 0).state ≠ 2 ∧
    (((ringSt 0 { state := 3 }).ring 0).state ≠ 1 ∧ 0 ≠ 1) := by decide

/-- The same with doorbells polled. -/
def polled (s : State) : State := s.modHost (fun h => { h with polling := true })

theorem wit_RingsAndDoorbellsFollowTheirRules_doorbells :
    (let s := ringSt 0 { state := 1, shared := true }
     s.running ∧ (s.ring 0).state = 1 ∧ s.host.polling = false ∧ (s.ring 0).shared = true ∧ 2 ^ s.sqLog 0 = 64 ∧ s.host.polling ≠ s.wantPoll) ∧
    (let s := polled (ringSt 0 { state := 1 }); (s.ring 0).state = 1 ∧ s.host.polling = true ∧ s.host.polling = s.wantPoll) ∧
    (((ringSt 0 { state := 1, reading := [(63, 2)] }).ring 0).reading = (63, 2) :: [] ∧ ((ringSt 0 { state := 1 }).ring 0).reading = []) := by decide

/-! ### Descriptors, weights and Spandrels -/

/-- The 64 bytes of a descriptor whose fields (offset, length, value) are given. -/
def desc (l : List (Nat × Nat × Nat)) : Bytes := l.foldl (fun b e => putBytes b e.1 (leBytes e.2.1 e.2.2)) (zeros 64)
/-- Ring r ON with d waiting at index 5. -/
def waiting (r : Nat) (d : Bytes) : State := ringSt r { state := 1, fetched := [(5, d)], outstanding := 1 }
/-- A RUNNING Carriageway 0 that admits 1,024 requests of a tenant of 100 prompt tokens, 200 in all, ten tracked. -/
def submitting (d : Bytes) : State :=
  let s := { waiting 0 d with cwys := [(0, { life := { state := .running, enable := true } })] }
  ((s.setWord (cwyBase 0 + 0x20) 1).setWord (tenBase 0 + 16) (10 * 2 ^ 43)).setWord (tenBase 0 + 24) (100 + 200 * 2 ^ 24)
def dSubmit : Bytes := desc [(0, 1, 1), (24, 4, 20), (28, 4, 4)]
def dTag (k : Nat) : Bytes := desc [(0, 1, k), (8, 8, 77)]
def dPause : Bytes := desc [(0, 1, 3), (16, 4, 9)]
def dHint : Bytes := desc [(0, 1, 11), (16, 4, 200), (20, 4, 1), (24, 1, 3)]

theorem wit_DescriptorsAreRefusedInOrder :
    (let d := desc [(0, 1, 2), (16, 1, 1)]; let s := waiting 0 d
     s.serves 0 ∧ (s.ring 0).fetched = (5, d) :: [] ∧ getLe d 0 1 = 2 ∧ s.descCode 0 2 d = 0x61) ∧
    (let s := waiting 1024 dSubmit; s.serves 1024 ∧ getLe dSubmit 0 1 = 1 ∧ s.descCode 1024 1 dSubmit = 0x69) ∧
    (getLe (desc [(0, 1, 12)]) 0 1 < 1 ∨ 11 < getLe (desc [(0, 1, 12)]) 0 1) ∧ (getLe (zeros 64) 0 1 < 1 ∨ 11 < getLe (zeros 64) 0 1) := by decide

theorem wit_OrdersOnRequestsTakeTheirPlace :
    (let s := submitting dSubmit
     s.serves 0 ∧ (s.ring 0).fetched = (5, dSubmit) :: [] ∧ getLe dSubmit 0 1 = 1 ∧ s.descCode 0 1 dSubmit = 0 ∧
      s.submitCode (s.tenCwy (s.ringOwner 0)) (s.ringOwner 0) dSubmit = 0 ∧ fld (getLe dSubmit 1 1) 2 2 = 0) ∧
    (let s := waiting 0 dSubmit; s.descCode 0 1 dSubmit = 0 ∧ s.submitCode (s.tenCwy (s.ringOwner 0)) (s.ringOwner 0) dSubmit = 0x66) ∧
    (let s := waiting 0 (dTag 4)
     getLe (dTag 4) 0 1 = 4 ∧ s.descCode 0 4 (dTag 4) = 0 ∧ s.tagged (s.ringOwner 0) (slice (dTag 4) 8 8) = none) := by decide

theorem wit_OrdersOnRequestsTakeTheirPlace_live :
    (let d := desc [(0, 1, 2)]; let s := withReq req0 (waiting 0 d)
     s.serves 0 ∧ s.tagged (s.ringOwner 0) (slice d 8 8) = some (0, req0) ∧ s.req 0 = some req0 ∧ getLe d 0 1 = 2 ∧ s.descCode 0 2 d = 0 ∧ req0.cancel = none ∧
      s.isStopped req0.cwy = false) ∧
    (let s := withReq req0 (waiting 0 dPause)
     s.tagged (s.ringOwner 0) (slice dPause 8 8) = some (0, req0) ∧ getLe dPause 0 1 = 3 ∧ s.descCode 0 3 dPause = 0 ∧ req0.wantsPause = false ∧
      req0.acting = none ∧ req0.pause = none ∧ getLe dPause 16 4 ≠ 0) ∧
    (let d := desc [(0, 1, 4)]; let s := withReq paused0 (waiting 0 d)
     getLe d 0 1 = 4 ∧ s.descCode 0 4 d = 0 ∧ paused0.wantsPause = true ∧ paused0.acting = none ∧ paused0.resume = none) ∧
    (let d := desc [(0, 1, 5)]; (waiting 0 d).descCode 0 5 d = 0) ∧ ((waiting 0 dHint).descCode 0 11 dHint = 0 ∧ getLe dHint 0 1 = 11) := by decide

def done0 : Fetch × Nat := ({ ring := 0, dindex := 5, tag := [], sel := 0, key := 0, dest := 0, cap := 64 }, 576)

theorem wit_PromptReadsFeedTheirRequest :
    (let s := withReq req0 up; s.running ∧ s.req 0 = some req0 ∧ req0.ready = false ∧ req0.lookup = false ∧ req0.isComp = false ∧ req0.phase ≠ .decode) ∧
    ({ req0 with ready := true }.ready = true) ∧ ((withReq { req0 with lookup := true } up).req 0 = some { req0 with lookup := true }) ∧
    (HostAccess.prompt 0 = .prompt 0 ∨ HostAccess.prompt 0 = .tokenBuffer 0) ∧
    ([done0].find? (fun e => e.1.ring == 0 && e.1.dindex == 5) = some done0) := by decide

/-- A bundle header of a kind with m layers and 32 plain bytes; a landing region of 1 GiB at 0 that holds it at 0. -/
def bundleHead (kind m : Nat) : Bytes :=
  leBytes 4 0x57424E58 ++ leBytes 2 1 ++ leBytes 1 kind ++ [0] ++ List.replicate 16 7 ++ zeros 4 ++ leBytes 4 1 ++ leBytes 8 32 ++ leBytes 2 m ++ zeros 22
def landed (h : Bytes) (s : State) : State :=
  { s.setWord 0x10020 (2 ^ 16) with host := { s.host with landEn := true }, hbm := memPut [] 0 h }
def dLoad : Bytes := desc [(0, 1, 7), (24, 8, 8192)]
def dKey : Bytes := desc [(0, 1, 7), (1, 1, 1), (24, 8, 1664)]
def dReplace : Bytes := desc [(0, 1, 8), (17, 1, 1)]
def load0 : Load := { ring := 1024, dindex := 4, tag := zeros 8, off := 0, len := 8192, hdr := bundleHead 0 1, key := zeros 32 }
def withW (w : Weights) (s : State) : State := { s with cwys := [(0, { w := w })] }
def layer0 : LayerW := { model := 0, digest := [], version := 1, piers := [((0, 0, 0), 4096)], blocks := [] }

theorem wit_WeightOrdersBeginTheirWork :
    (let s := landed [] { waiting 1024 dLoad with cwys := [(0, { life := { state := .checking } })] }
     s.serves 1024 ∧ (s.ring 1024).fetched = (5, dLoad) :: [] ∧ getLe dLoad 0 1 = 7 ∧ getLe dLoad 1 1 = 0 ∧ s.descCode 1024 7 dLoad = 0 ∧ s.loadBlocked 0 = true) ∧
    (let s := landed [] (withW { load := some load0 } (waiting 1024 dLoad)); s.loadBlocked 0 = false ∧ (s.cwy 0).w.load = some load0) ∧
    (let s := landed [] (waiting 1024 dLoad)
     s.loadBlocked 0 = false ∧ (s.cwy 0).w.load = none ∧ (s.cwy 0).w.loadWait = [] ∧ headerBad 0 (s.bundleHead (s.landBase + 0)) 8192 = true) ∧
    (let s := landed (bundleHead 0 1) (waiting 1024 dLoad)
     headerBad 0 (s.bundleHead (s.landBase + 0)) 8192 = false ∧ s.bundleKey 0 (slice (s.bundleHead (s.landBase + 0)) 8 16) = none) ∧
    (let s := { landed (bundleHead 0 1) (waiting 1024 dLoad) with tenants := [(0, { bound := true, keyState := 1, modelKey := some (List.replicate 16 7, [1]) })] }
     s.bundleKey 0 (List.replicate 16 7) = some [1]) := by decide +kernel

theorem wit_WeightOrdersBeginTheirWork_others :
    (let s := landed [] (waiting 1024 dKey); let env := memBytes s.hbm s.landBase 1664
     s.descCode 1024 7 dKey = 0 ∧ getLe dKey 1 1 = 1 ∧ getLe env 1584 1 ≤ 1 ∧ allZero (slice env 1585 15) = true ∧ allZero (slice env 1648 16) = true) ∧
    (let s := { waiting 1024 dReplace with cwys := [(0, { life := { state := .running }, w := { staged := [(0, layer0)] } })] }
     s.descCode 1024 8 dReplace = 0 ∧ (s.cwy 0).w.replace = none ∧ s.inState 0 [.running] = true ∧
      (∀ k, k < getLe dReplace 17 1 → (tget (s.cwy 0).w.staged (getLe dReplace 16 1 + k)).isSome = true)) ∧
    (let s := { waiting 1024 dReplace with cwys := [(0, { life := { state := .running }, w := { staged := [(0, layer0)] } })] }
     s.stagedClash 0 [0] = false ∧ { s with bays := [(0, { piers := [(0, { state := 2 })], mode := some 1 })] }.stagedClash 0 [0] = true) ∧
    (0 < getLe dReplace 17 1 ∧ tget ([] : Tab LayerW) (getLe dReplace 16 1 + 0) = none) := by
  refine ⟨by decide +kernel, ⟨by decide +kernel, by decide, by decide, ?_⟩, by decide, by decide⟩
  intro k hk
  have : getLe dReplace 17 1 = 1 := by decide
  have hk : k = 0 := by omega
  subst hk
  decide

theorem wit_BundlesAreCheckedThenInstalled :
    (let s := withW { load := some load0 } up; s.running ∧ (s.cwy 0).w.loadWait = [] ∧ (s.cwy 0).w.load = some load0 ∧ load0.chunk < load0.chunks) ∧
    (load0.accepted = false ∧ { load0 with chunk := 1 }.chunks ≤ 1) ∧
    (let s := { up with bays := [(0, { bulk := [(3, { src := 0, cwy := 0, why := 0, logical := 0, on := true })] })] }
     (s.bay (bayNo 0 0)).bulk = (3, { src := 0, cwy := 0, why := 0, logical := 0, on := true }) :: [] ∧ s.dieOn 0 = true ∧
      (∀ f ∈ s.ras.pend, f.spare ≠ some 3) ∧ (s.pier (bayNo 0 0) 3).state ≠ 3 ∧
      s.sparePhys (bayNo 0 0) ≠ 3 ∧ s.ras.queue = [] ∧ ((s.bay (bayNo 0 0)).bulk.map (·.1)).head? ≠ some 4) ∧
    ((up.bay (bayNo 0 0)).bulk.map (·.1)).head? ≠ some 3 := by decide

def dSpan : Bytes := desc [(0, 1, 9), (2, 2, 5), (24, 8, 8192)]
def dRetire : Bytes := desc [(0, 1, 10), (16, 1, 255)]
def spanState : State :=
  let s := landed (bundleHead 1 0) (waiting 1024 dSpan)
  { s.setWord (cwyBase 0 + 0x100 + 64) 8 with tenants := [(5, { bound := true, spKey := some (List.replicate 16 7, [1]) })] }

theorem wit_SpandrelsAreLoadedAndRetired :
    (spanState.serves 1024 ∧ (spanState.ring 1024).fetched = (5, dSpan) :: [] ∧ getLe dSpan 0 1 = 9 ∧ spanState.descCode 1024 9 dSpan = 0 ∧
      (spanState.tenant 5).bound = true ∧ (spanState.tenant 5).unbinding = false ∧ spanState.tenCwy 5 = 0 ∧ spanState.loadBlocked 0 = false ∧
      headerBad 1 (spanState.bundleHead (spanState.landBase + 0)) (getLe dSpan 24 8) = false ∧ (spanState.tenant 5).spKey = some (List.replicate 16 7, [1]) ∧
      spanState.freeSpandrel 0 = some 3) ∧
    (let s := { waiting 1024 dRetire with spandrels := [(255, { state := 2 })] }
     s.descCode 1024 10 dRetire = 0 ∧ (s.tenant 0).bound = true ∧ s.tenCwy 0 = 0 ∧ (s.sp 255).tenant = 0 ∧ (s.sp 255).retiring = false ∧ (s.sp 255).state = 2 ∧
      (s.sp 255).order = none) ∧
    (let s := { keyAt .running {} with spandrels := [(255, { state := 3 })] }; (s.sp 255).state = 3 ∧ s.inState 0 [.running, .stopping] = true) := by decide +kernel

theorem wit_SpandrelsAreLoadedAndRetired_placed :
    (let l := { load0 with slot := 9, chunk := 1 }
     let s := { up with cwys := [(0, { life := { state := .running }, w := { spLoads := [l] } })], spandrels := [(9, { state := 1 })] }
     s.running ∧ s.spLoad (s.sp 9).cwy 9 = some l ∧ l.chunks ≤ l.chunk ∧ s.inState (s.sp 9).cwy [.running] = true) := by decide

/-! ### Refresh, calibration, faults, certificates, windows -/

/-- A READY Pier p of Bay 0 that is physical 0, with the shadow of its layer at HBM address 4096. -/
def shadowed (p : Pier) : State := { up with bays := [(0, { piers := [(0, { p with state := 2 })], desc := [(0, (0, 3, 4096))] })] }

theorem wit_RefreshCopiesTheShadowRowByRow :
    (let s := shadowed {}
     s.running ∧ s.dieOn 0 = true ∧ (s.pier (bayNo 0 0) 0).refreshBuf = none ∧ s.halted = false ∧ s.refreshNext 0 = some (17 * 0 + 0) ∧ s.refreshBufs 0 < 128 ∧
      s.pierShadow (bayNo 0 0) 0 = some (0, 3, 4096)) ∧
    (let s := shadowed { refreshRow := some 511, refreshBuf := some [] }
     (s.pier (bayNo 0 0) 0).refreshRow = some 511 ∧ (s.pier (bayNo 0 0) 0).refreshBuf = some [] ∧ s.halted = false ∧ s.pstate (bayNo 0 0) 0 = 2 ∧
      tget (s.bay (bayNo 0 0)).bulk 0 = none ∧ s.rowSlot (bayNo 0 0) 0 99 = true) ∧
    ((shadowed { rowFree := 100 }).rowSlot (bayNo 0 0) 0 99 = false) ∧
    (let s := { shadowed {} with pw := { (shadowed {}).pw with refTicks := 10 ^ 15 } }
     s.pstate (bayNo 0 0) 0 = 2 ∧ (s.pier (bayNo 0 0) 0).overdue = false ∧ (s.pier (bayNo 0 0) 0).lastRefresh + 2 * s.longest (bayNo 0 0) < s.pw.refTicks) ∧
    ((shadowed { overdue := true }).pier (bayNo 0 0) 0).overdue = true := by decide

theorem wit_CalibrationPassesGiveTrims :
    (let s := shadowed { calLeft := some 1 }; s.running ∧ s.ownSlot (bayNo 0 0) 0 99 = true ∧ (s.pier (bayNo 0 0) 0).calLeft = some (0 + 1)) ∧
    ((shadowed { calLeft := some 1, rowFree := 100 }).ownSlot (bayNo 0 0) 0 99 = false) ∧
    ((shadowed { calLeft := some 0 }).dieOn 0 = true ∧ ((shadowed { calLeft := some 0 }).pier (bayNo 0 0) 0).calLeft = some 0) ∧ ((shadowed {}).pier (bayNo 0 0) 0).calLeft = none := by decide

/-- Demands, running actions and waiting fence clears as given. -/
def rasAt (r : Ras) : State := { up with ras := r }

theorem wit_DemandsAndLedgerRecordFaults :
    (up.running ∧ up.ras.demands = [] ∧ up.ras.queue = []) ∧
    (let s := rasAt { demands := [{ level := .link, unit := .device }] }; s.ras.demands = { level := .link, unit := .device } :: []) ∧
    (let s := rasAt { demands := [{ level := .bay, unit := .bay 5 255 }] }
     s.outOfService (.bay 5 255) = false ∧ s.ras.running = [] ∧ s.ras.queue = [] ∧ ∀ c < 64, s.unitUsed c (.bay 5 255) = false) ∧
    (let d : Demand := { level := .bay, unit := .bay 0 1 }; let x : Demand := { level := .bay, unit := .bay 1 1 }
     let s := rasAt { demands := [d], running := [x] }
     d.unit ≠ .device ∧ s.outOfService d.unit = false ∧ d.unit.lastLink = false ∧ s.ras.running.any (fun y => y.level == d.unit.level) = true ∧
      (∀ y ∈ s.ras.running, y.level = d.unit.level → y.unit.scope ≠ d.unit.scope) ∧
      (∀ y ∈ s.ras.queue, s.ras.running.any (fun x => x.level == y.level) = true) ∧ s.ras.queue.length < 32) ∧
    (stage 7).mgt.stage ≠ 8 ∧ ({ up with ledger := { log := [], queue := [zeros 32] } }.ledger.queue = zeros 32 :: []) ∧ up.ledger.queue = [] ∧ up.mgt.hkStopped = false ∧
    up.ledger.log.length ≤ 98304 := by decide

/-- A log of 98,305 records that a compaction drops, from the region's start or from the sector given. -/
def longLog (base : Nat) : State := { up with ledger := { log := List.replicate 98305 (zeros 32), base := base } }

theorem wit_DemandsAndLedgerRecordFaults_compaction : (longLog 0).mgt.hkStopped = false ∧ 98304 < (longLog 0).ledger.log.length ∧
    (longLog 0).ledger.free = (98432, 32640) := by
  have h : (longLog 0).ledger.log.length = 98305 := by simp only [longLog, List.length_replicate]
  refine ⟨rfl, by rw [h]; omega, ?_⟩
  unfold Ledger.free; rw [h]; decide

/-- Inspections are enabled (RAS_INSP_CFG). -/
def inspecting (s : State) : State := s.setWord 0x80030 (2 ^ 16 + 20 * 2 ^ 20)

theorem wit_InspectionsAndClearsMoveUnits :
    (let s := inspecting (shadowed {})
     s.running ∧ s.inspects = true ∧ s.pstate (bayNo 0 0) 0 = 2 ∧ s.inspSlot (bayNo 0 0) 0 99 = true ∧
      s.hotNow (bayNo 0 0) = true) ∧ (up.setWord 0x80030 0).inspects = false ∧ (inspecting (shadowed { rowFree := 100 })).inspSlot (bayNo 0 0) 0 99 = false ∧
    (let s := { inspecting (shadowed {}) with ledger := { beatBase := 2 ^ 40 }, thm := { past := [(bayNode (bayNo 0 0), [(2 ^ 40, 300000)])] } }; s.coldBay (bayNo 0 0) = true) ∧
    (let s := inspecting (shadowed {})
     s.dieOn 0 = true ∧ s.sparePhys (bayNo 0 0) = 16 ∧ s.pstate (bayNo 0 0) 16 = 0 ∧ (s.bay (bayNo 0 0)).bulk = [] ∧ s.calWaits (bayNo 0 0) 16 = false ∧
      s.runFits (bayNo 0 0) 16 [{ start := 99, seg := [], codes := [] }] = true ∧ ({ wrote := true, beats := [{ start := 99, seg := [], codes := [] }], start := 0, len := 0, patterns := [] } : InspRun).beats ≠ [] ∧
      s.outOfService (.girder 0 63) = false ∧ (s.girder (girNo 0 63)).run = none ∧
      s.girderFree 0 63 9 5 = true ∧ runCovers ⟨true, [], 9, 5, [(.fma 0 0 0, 0), (.fmaBf16 0 0 0, 0), (.ex2 0, 0), (.rcp 0, 0), (.rsq 0, 0)]⟩ = true) ∧
    (let s := { inspecting up with ledger := { beatBase := 2 ^ 20 } }
     s.inspects = true ∧ s.outOfService (.pier 5 255 16) = false ∧ (s.pier (bayNo 5 255) 16).starved = false ∧ 2 ^ s.inspf 20 6 ≤ serviceBeat s - max s.ras.inspFrom (s.pier (bayNo 5 255) 16).lastInsp) ∧
    ((shadowed { starved := true }).pier (bayNo 0 0) 0).starved = true := by decide

theorem wit_InspectionsAndClearsMoveUnits_clears :
    (let s := { up with bays := [(bayNo 5 255, { fenced := true })] }; let w : Word := BitVec.ofNat 64 (2 ^ 31 + 1 * 2 ^ 29 + 5 * 2 ^ 26 + 255 * 2 ^ 18)
     s.mgt.stage = 8 ∧ bit w.toNat 31 = true ∧ s.clrUnit w.toNat = some (.bay 5 255) ∧ s.unitGranted (.bay 5 255) = false) ∧
    ((rasAt { clr := [.bay 5 255] }).halted = false ∧ (rasAt { clr := [.bay 5 255] }).ras.clr = .bay 5 255 :: []) := by decide

def dFetch : Bytes := desc [(0, 1, 6), (1, 1, 1), (16, 8, 3), (32, 4, 64)]
def win2 : Window := { num := 2, leaves := [] }

theorem wit_WindowsCloseAndAreSigned :
    ({ up with certs := { closed := [{ num := 1, leaves := [], rec_ := some [] }, win2] } }.certs.closed.find? (fun w => w.rec_.isNone) = some win2) ∧
    (let s := waiting 0 dFetch
     s.serves 0 ∧ (s.ring 0).fetched = (5, dFetch) :: [] ∧ getLe dFetch 0 1 = 6 ∧ s.descCode 0 6 dFetch = 0 ∧ getLe dFetch 1 1 = 1 ∧
      s.certs.closed.find? (fun w => w.num == getLe dFetch 16 8) = none) := by decide

theorem wit_EventsReachTheHost :
    (let s := { up with host := { up.host with evt := { enable := true, waiting := [zeros 32] } } }; s.host.evt.enable = true ∧ s.host.evt.waiting ≠ []) ∧
    (up.host.evt.enable = false ∨ up.host.evt.waiting = []) ∧
    (let s := up.setWord 0x10048 (16 * 2 ^ 48)
     s.running ∧ s.host.evt.enable = false ∧ s.host.evt.waiting = [] ∧ s.host.evt.ovf = false ∧ 6 ≤ s.evtf 112 5 ∧ s.evtf 112 5 ≤ 16) ∧
    ((up.setWord 0x10048 (17 * 2 ^ 48)).evtf 112 5 < 6 ∨ 16 < (up.setWord 0x10048 (17 * 2 ^ 48)).evtf 112 5) ∧
    (2047 ∈ { up with host := { up.host with msixPending := [2047] } }.host.msixPending) ∧ up.pw.shutEnded = false ∧ 2047 ∉ up.host.msixPending ∧
    (pwAt { shutEnded := true }).pw.shutEnded = true := by decide

/-- Both windows of the host mapped: the HDM window 1 GiB from GiB b, the landing region 1 GiB at GiB 2. -/
def mapped (b : Nat) : State :=
  let s := (up.setWord 0x10010 (b + 2 ^ 16)).setWord 0x10020 (2 + 2 ^ 16)
  { s with host := { s.host with hdmEn := true, landEn := true, memEn := true, biEn := true } }

theorem wit_WindowMapsAndHostAccesses :
    ((mapped 1).host.hdmEn = true ∧ bit (0x8000000000000000 : Word).toNat 63 = true) ∧ bit (0 : Word).toNat 63 = false ∧ up.host.hdmEn = false ∧
    (mapped 1).host.landEn = true ∧ up.host.landEn = false ∧ up.hdmMapped 0 64 = false ∧
    ((mapped 1).hdmMapped (2 ^ 30 - 64) 64 = true ∧ hbmIn ((mapped 1).hdmBase + (2 ^ 30 - 64)) 64 = true ∧ memWf (landNow (mapped 1)).hbm = true) ∧
    up.bar2Mapped 0 64 = false ∧ ((mapped 1).bar2Mapped (2 ^ 30 - 64) 64 = true ∧ hbmIn ((mapped 1).landBase + (2 ^ 30 - 64)) 64 = true) ∧
    ((mapped 384).hdmMapped 0 64 = true ∧ hbmIn ((mapped 384).hdmBase + 0) 64 = false) := by decide

theorem wit_WindowMapsAndHostAccesses_bar2 :
    (let s := { up.setWord 0x10020 (384 + 2 ^ 16) with host := { up.host with landEn := true } }
     s.running ∧ s.bar2Mapped 0 64 = true ∧ hbmIn (s.landBase + 0) 64 = false) := by decide

theorem wit_LinkEventsAndConfiguration : (rom.running ∧ rom.mgt.stage = 1) ∧ (up.mgt.stage ≠ 1 ∧ up.mgt.stage ≠ 2) ∧
    ConfigReq.setAtsEnable true = .setAtsEnable true ∧ ((8 = 16 ∨ 8 = 8) ∧ (32 = 64 ∨ 32 = 32)) ∧ (4 ≠ 16 ∧ 4 ≠ 8) ∧
    (1 ≠ 0 ∧ capPresent (.ext 0x10) = some false) ∧ (5 < 6 ∧ [(5, 0xFFFFFFFF), (4, 0xFFFFFFFF)].all (fun e => tgetD ([(4, 0xFFFFFFFF), (5, 0xFFFFFFFF)] : Tab Nat) e.1 0 == e.2) = true) ∧
    (mgtAt { doeOn := true }).mgt.doeOn = true ∧ rom.mgt.doeOn = false := by decide

/-! ### SPDM, Trestle and Pelind -/

def conn (c : SpdmConn) : State := { up with mgt := { up.mgt with doeOn := true }, chain := { up.chain with spdmDoe := c } }

/-- A request of version 1.4 of n bytes; and one whose algorithms are those of R410, of a measurement, and of an unknown index. -/
def req14 (code n : Nat) : Bytes := [0x14, BitVec.ofNat 8 code] ++ zeros (n - 2)
def algs14 : Bytes := putBytes (putBytes (req14 0xE3 32) 12 (leBytes 4 0x20)) 16 (leBytes 4 2)

theorem wit_SpdmAnswersInOrder :
    ((conn {}).running ∧ (conn {}).spdmOpen .doe = true ∧ up.spdmOpen .trestle = true ∧ rom.spdmOpen .trestle = false) ∧
    (spdmCode [0x10, 0x84, 0, 0] = 0x84 ∧ getLe ([0x10, 0x84, 0, 0] : Bytes) 0 1 = 0x10 ∧ getLe (req14 0x84 4) 0 1 ≠ 0x10) ∧
    (∀ e ∈ [(0xE1, 20), (0xE3, 32), (0x81, 4), (0x82, 8), (0x83, 44), (0xE0, 12)], spdmCode (req14 e.1 e.2) = e.1 ∧ getLe (req14 e.1 e.2) 0 1 = 0x14 ∧
      (req14 e.1 e.2).length = e.2 ∧ (req14 e.1 2).length < e.2) ∧
    (let x := (conn { version := true }).conn .doe; x.version = true ∧ x.caps = false ∧ (x.version && !x.caps) = true ∧ (x.caps && !x.algs) = false) ∧
    (let x := (conn { caps := true }).conn .doe; x.caps = true ∧ x.algs = false) ∧ ((conn { algs := true }).conn .doe).algs = true ∧
    (spdmCode algs14 = 0xE3 ∧ 32 ≤ algs14.length ∧ bit (getLe algs14 12 4) 5 = true ∧ bit (getLe algs14 16 4) 1 = true ∧
      bit (getLe (req14 0xE3 32) 12 4) 5 = false) ∧
    (((conn { algs := true }).measurement 3).isSome = true ∧ ¬((200 : Nat) = 0 ∨ (200 : Nat) = 0xFF ∨ ((conn { algs := true }).measurement 200).isSome = true)) := by
  decide

/-- The device at Trestle address 5, in READY. -/
def addressed : State := { up with chain := { up.chain with addr := some 5 } }

/-- A head with the length and the CRC-32C of its type and payload. -/
def whole (f : THead) (typ : Nat) (pl : Bytes) : THead :=
  { f with len := BitVec.ofNat 16 pl.length, crc := BitVec.ofNat 32 (crc32c (trestleHead f.dst f.src typ f.seq pl.length ++ pl)) }

/-- Two contentions of ball 0 within the last 1 s. -/
def contending : State := { up with chain := { up.chain with contended := [(0, 0), (1, 0), (0, 0)] } }

set_option maxRecDepth 200000 in
theorem wit_TrestleFramesAreForwardedAndAnswered :
    (up.running ∧ up.acts fr0 0x01 [63, 1] = false) ∧
    (up.acts (whole { fr0 with dst := 0xFF } 0x01 [63, 0]) 0x01 [63, 0] = true ∧ up.chain.addr = none ∧ 63 ≤ 63) ∧
    (fr0.clash = false ∧ up.isolated 1 = false) ∧ addressed.acts (whole fr0 0x01 [63, 1]) 0x01 [63, 1] = true ∧
    (addressed.acts (whole fr0 0x01 [0, 0]) 0x01 [0, 0] = true ∧ addressed.chain.addr = some 5) ∧
    addressed.answers (whole fr0 0x02 []) 5 0x02 [] ∧ addressed.answers (whole fr0 0x21 [1]) 5 0x21 [1] ∧
    (2 ≤ 2 ∧ contending.isolated 0 = false ∧ (contending.contentions.filter (fun e => e.1 == 0)).length = 2) ∧ 1 < 2 := by decide

/-- A fleet order is held. -/
def pendingRead : State := { addressed with chain := { addressed.chain with held := [{ slot := 1, instr := .regWrite fr0 0x40000 [1] }] } }

set_option maxRecDepth 200000 in
theorem wit_FleetOrdersAreAnswered :
    addressed.mgt.stage = 8 ∧ addressed.answers (whole fr0 0x10 [0, 0x80, 0x0F, 0, 16]) 5 0x10 [0, 0x80, 0x0F, 0, 16] ∧
    (0xF8000 % 8 = 0 ∧ 1 ≤ 16 ∧ 16 ≤ 16) ∧ 0xF8004 % 8 ≠ 0 ∧ (17 < 1 ∨ 16 < 17) ∧
    addressed.answers (whole fr0 0x11 [0, 0, 0x0B, 0, 1, 0, 0, 0, 0, 0, 0, 0, 0, 0, 0, 0]) 5 0x11 [0, 0, 0x0B, 0, 1, 0, 0, 0, 0, 0, 0, 0, 0, 0, 0, 0] ∧
    addressed.answers (whole fr0 0x11 [0, 0, 2, 0, 1, 0, 0, 0, 0, 0, 0, 0, 0, 0, 0, 0]) 5 0x11 [0, 0, 2, 0, 1, 0, 0, 0, 0, 0, 0, 0, 0, 0, 0, 0] ∧
    addressed.answers (whole fr0 0x11 [0, 0, 2, 0, 0, 0, 0, 0]) 5 0x11 [0, 0, 2, 0, 0, 0, 0, 0] ∧
    addressed.answers (whole fr0 0x30 [0x14, 0x81, 0, 0]) 5 0x30 [0x14, 0x81, 0, 0] ∧
    addressed.fleetPends = false ∧ pendingRead.fleetPends = true ∧ pendingRead.answers (whole fr0 0x10 [0, 0, 4, 0, 1]) 5 0x10 [0, 0, 4, 0, 1] ∧
    addressed.holding = false ∧ (fleetTakes 0x20000 = false ∧ blockOf 0x20000 = blockOf (0x20000 + 7)) := by decide

set_option maxRecDepth 200000 in
theorem wit_FleetOrdersAreAnswered_writes :
    addressed.accessWaits .fleet 0xB0000 = false ∧ addressed.chain.slot = none ∧ fleetTakes 0xB0000 = true ∧ blockOf 0xB0000 = blockOf 0xB0007 ∧
    (rwlMask 0x40048).isSome = true ∧ fleetTakes 0x40048 = true ∧ blockOf 0x40048 = blockOf 0x4004F ∧ addressed.accessWaits .fleet 0x40048 = false ∧
    (frameOffs 0x40048 1).any (addressed.accessWaits .fleet) = false ∧ (frameOffs 0x40048 1).any (pendingRead.accessWaits .fleet) = true ∧
    addressed.answers (whole fr0 0x11 [0x48, 0, 4, 0, 1, 0, 0, 0, 0, 0, 0, 0, 0, 0, 0, 0]) 5 0x11 [0x48, 0, 4, 0, 1, 0, 0, 0, 0, 0, 0, 0, 0, 0, 0, 0] ∧
    pendingRead.answers (whole fr0 0x11 [0x48, 0, 4, 0, 1, 0, 0, 0, 0, 0, 0, 0, 0, 0, 0, 0]) 5 0x11 [0x48, 0, 4, 0, 1, 0, 0, 0, 0, 0, 0, 0, 0, 0, 0, 0] := by decide

/-- A head so completed is that of a whole frame. -/
theorem whole_whole (f : THead) (typ : Nat) (pl : Bytes) (h : pl.length < 65536) : wholeFrame (whole f typ pl) typ pl = true := by
  simp only [wholeFrame, whole, BitVec.toNat_ofNat, decide_eq_true_eq]
  exact ⟨Nat.mod_eq_of_lt h, Nat.mod_eq_of_lt (crc32c_lt _)⟩

theorem wit_FleetJobKey :
    (addressed.answers (whole fr0 0x20 (leBytes 1 63 ++ zeros 15 ++ slice [] 0 1664)) 5 0x20 (leBytes 1 63 ++ zeros 15 ++ slice [] 0 1664) ∧ 63 < 64) ∧
    addressed.answers (whole fr0 0x20 (leBytes 1 64 ++ zeros 15 ++ slice [] 0 1664)) 5 0x20 (leBytes 1 64 ++ zeros 15 ++ slice [] 0 1664) ∧ 64 ≤ 64 :=
  have h : ∀ c, (leBytes 1 c ++ zeros 15 ++ slice [] 0 1664).length < 65536 := fun c => by
    rw [List.length_append, List.length_append, slice_length, leBytes, List.length_map, List.length_range, zeros, List.length_replicate]
    decide
  ⟨⟨⟨by decide, by decide, by decide, rfl, whole_whole _ _ _ (h _), by decide⟩, by decide⟩,
    ⟨by decide, by decide, by decide, rfl, whole_whole _ _ _ (h _), by decide⟩, by decide⟩

/-- R400: five equal bits are followed by an opposite one, which counts towards the next five. -/
theorem test_stuffing : stuffBits false 0 (lsbBits [0xE0, 0x0F]) =
    [false, false, false, false, false, true, true, true, true, true, false, true, true, true, false, false, false, false] := by decide

/-- R403: the third contention within 1 s isolates the ball. -/
theorem test_contention : ((contentionOp 0 2 contending).chain.isoDin, (contentionOp 1 2 contending).chain.isoDout) = (true, false) := by decide

def portAt (p : Port) : State := { up with ports := [(0, p)] }

theorem wit_PortsTrainAndMoveLanes :
    ((portAt { state := 1 }).running ∧ ((portAt { state := 1 }).port 0).state = 1 ∧ ((portAt { state := 1 }).port 0).phase = 0) ∧
    ((portAt { state := 1, phase := 1 }).port 0).phase = 1 ∧ ((portAt { state := 1, phase := 2 }).port 0).phase = 2 ∧
    ((portAt { state := 1, phase := 3 }).port 0).phase = 3 ∧ (up.port 0).state ≠ 1 ∧ (((portAt { state := 3 }).port 0).state = 2 ∨ ((portAt { state := 3 }).port 0).state = 3) ∧
    (((portAt { state := 2 }).port 0).state = 2 ∧ ((portAt { state := 2 }).port 0).moving = none ∧ ((portAt { state := 2 }).port 0).spareUsed = false) ∧
    ((portAt { state := 2, spareUsed := true }).port 0).spareUsed = true ∧ ((portAt { state := 2, moving := some 7 }).port 0).moving ≠ some 3 ∧
    (portAt { state := 2, moving := some 7 }).ras.queue = [] ∧ (up.port 0).state ≠ 2 ∧
    (((portAt { state := 2, moving := some 7 }).port 0).moving = some 7 ∧ ((portAt { state := 2, moving := some 7 }).port 0).spareUsed = false ∧ (portAt { state := 2 }).ras.queue = []) := by decide

theorem wit_LinkRegistersMoveThePorts :
    (up.running ∧ up.mgt.stage = 8 ∧ up.holding = false ∧ up.enabledCwys = [] ∧ torusBad (0 : Word).toNat = false) ∧
    ((keyAt .running {}).holding = false ∧ (keyAt .running {}).enabledCwys ≠ []) ∧ torusBad (1 : Word).toNat = true ∧
    (5 < 6 ∧ up.ras.queue = [] ∧ 3 < 8 ∧ up.mapCode 5 3 = 0) ∧ up.mapCode 5 2 ≠ 0 ∧
    (let s := (portAt { state := 5 }).setWord 0xD0000 (2 ^ 30); s.holding = false ∧ s.portOff 0 = false ∧ s.mayTrain = true ∧ (s.port 0).state = 5) ∧
    (up.port 0).state ≠ 5 ∧ fld (0x80020000 : Word).toNat 16 3 ≠ 5 ∧ fld (0x80050000 : Word).toNat 16 3 = 5 := by decide

/-- A data frame's header of job 0 for member dst, on vc v. -/
def head0 (v dst : Nat) : Bytes := putBytes (putBytes (zeros 416) 0 [1]) 1 (leBytes 1 (8 * v) ++ zeros 2 ++ leBytes 2 dst)
def xfer0 : Xfer := { cwy := 0, dir := 0, dmember := 1, rxbuf := 0, tag := 0, addr := 0, flits := 7, die := 6 }
/-- This device is member 0 of two; its port 0 is as given and runs Carriageway 0. -/
def linked (p : Port) : State := { pair 0 (keyAt .running {}) with ports := [(0, p)] }

theorem wit_FramesLeavePassAndArrive :
    (let s := landNow (portAt { state := 2 }); (portAt { state := 2 }).running ∧ (s.port 0).state = 2 ∧ 0 < 55 ∧ 55 < 56 ∧ tget (s.port 0).slots 55 = none) ∧
    (let s := landNow (linked { state := 2, slots := [(1, 0)], xfers := [xfer0] })
     (s.port 0).state = 2 ∧ tget (s.port 0).slots 1 = some 0 ∧ (s.port 0).fwd = [] ∧ (s.port 0).xfers = [] ++ xfer0 :: [] ∧ xfer0.cwy = 0 ∧ s.closed 0 xfer0.dir = false) ∧
    (let s := landNow ((linked { state := 2, slots := [(62, 0)], xfers := [xfer0] }).setWord 0xD2000 (2 ^ 31))
     62 < 63 ∧ tget (s.port 0).slots 62 = some 0 ∧ (s.port 0).xfers = [] ++ xfer0 :: [] ∧ s.closed 0 xfer0.dir = true) ∧
    (let s := landNow (linked { state := 2, slots := [(0, 0)], fwd := [(3, true, []), (0, false, [1])], thruSent := 7 })
     tget (s.port 0).slots 0 = some 0 ∧ (s.port 0).fwd = [(3, true, [])] ++ (0, false, [1]) :: [] ∧ ((3 : Nat) == 0 && true == decide (56 ≤ 0)) = false ∧
      ((0 : Nat) == 0 && false == decide (56 ≤ 0)) = true) ∧
    (let s := landNow (linked { state := 2, fwd := [(0, true, [1])] })
     tget (s.port 0).slots 56 = none ∧ (s.port 0).fwd = [] ++ (0, true, [1]) :: [] ∧ (decide (56 ≤ 56) && true) = true) ∧
    (¬ 64 * (0 + min 6 7) ≤ xfer0.data.length ∧ 64 * (0 + min 6 7) ≤ (zeros 384).length) ∧
    (let s := landNow (portAt { state := 2, ctl := [[0]] }); (s.port 0).state = 2 ∧ (s.port 0).ctl = [0] :: []) ∧
    (((landNow (portAt { state := 3, ctl := [[0]] })).port 0).state = 3 ∧ ((landNow (portAt { state := 2 })).port 0).ctl = []) ∧
    (((landNow up).port 0).state ≠ 2 ∧ ((landNow up).port 0).state ≠ 3) ∧
    (let s := linked {}; let b := head0 0 1
     s.jobCwy (fJob b) = some 0 ∧ fDst b ≠ s.self 0 ∧ s.route 0 (s.here 0) (s.memberCoord 0 (fDst b)) = some 0 ∧ s.outPort 0 0 = some 0) := by decide +kernel

theorem wit_FramesLeavePassAndArrive_others :
    up.jobCwy (fJob (head0 0 1)) = none ∧
    (let s := (portAt { state := 2, thruSent := 6 }).setWord 0xD0200 (2 ^ 31 + 3 * 2 ^ 16); s.grantPort 3 (head0 1 0) = some 0 ∧ (s.port 0).state = 2 ∧ (s.port 0).thruSent < 7) ∧
    (let s := (portAt { state := 5 }).setWord 0xD0200 (2 ^ 31 + 3 * 2 ^ 16); s.grantPort 3 (head0 1 0) = some 0 ∧ (s.port 0).state ≠ 2) ∧
    (let s := (portAt { state := 2, thruSent := 7 }).setWord 0xD0200 (2 ^ 31 + 3 * 2 ^ 16); s.grantPort 3 (head0 1 0) = some 0 ∧ (s.port 0).state = 2 ∧ 7 ≤ (s.port 0).thruSent) ∧
    (let b := putBytes (head0 0 1) 0 [3]; let s := { up with cwys := [(0, { jk := { sent := [(258, 4, b)] } })] }
     (s.cwy 0).jk.sent.find? (fun e => e.1 % 256 == 2 && e.2.1 == 4 && fType e.2.2 == 3) = some (258, 4, b)) ∧
    (reservedFrame (head0 3 0) = true ∧ reservedFrame (head0 1 0) = false) ∧
    (((landNow up).port 0).state ≠ 2 ∧ ((landNow (linked { state := 2 })).port 0).state = 2 ∧ memWf (landNow (linked { state := 2 })).sram = true) := by decide +kernel

/-! ### Worked examples of the spec and single steps -/

/-- Column 37 of the worked example of section 2: its segment, and an image that holds its weights. -/
def seg37 : List Int := (List.range 512).map (fun i =>
  if i = 3 then 40 else if i = 10 then -9 else if i = 20 then 5 else if i = 21 then -8 else if 100 ≤ i ∧ i < 140 then 7 else 0)
def img37 : Mem :=
  let w : List (Nat × Nat) := [(3, 11), (10, 6), (20, 7), (21, 13)] ++ (List.range 40).map (fun i => (100 + i, 2))
  let m := w.foldl (fun m e => memPut m (256 * e.1 + 18) (leBytes 1 (16 * e.2))) []
  memPut (memPut m 137232 ((List.range 8).map (BitVec.ofNat 8) ++ (List.range 8).map (fun i => BitVec.ofNat 8 (248 + i)))) (137248 + 18) (leBytes 1 (16 * 4))
def beat37 (code : Int) : Beat := { beat0 with u := 1, drive := driveOf seg37, ext := extracted seg37, code := [(37, code)] }

/-- Section 2: both outlier rows are extracted, y_A = 619, y_E = −254. -/
theorem test_segment_worked : extracted seg37 = [(3, 40), (10, -9)] ∧ yA img37 (beat37 38) 37 = 619 ∧ yE img37 (beat37 38) 37 = -254 ∧
    rangeShift img37 37 = 4 := by decide +kernel

/-- Section 2: with u = 1 the accumulator receives 708 or 740. -/
theorem test_contribution_worked : ((beat37 38).contrib img37 0).vals.getD 37 0 = 708 ∧ ((beat37 39).contrib img37 0).vals.getD 37 0 = 740 := by
  decide +kernel

/-- Section 2, INT8 with h = 4: the carry goes from channel to channel. -/
theorem test_requantise_worked : requant 4 5 [100, 40, -23, 7] = ([7, 2, -1, 0], 1, 0) := by decide

/-- Section 3: r = 307 with o = 4 and g = 16,768 gives t = 310 and code 39; column 37 is read in slot 5 by converter 4. -/
theorem test_conversion_worked :
    let b := addSlot [] 0 5 [0, 0, 0, 0, 307] true { beat0 with trims := .given [(37, (16768, 4))] }
    tget b.fine 37 = some 310 ∧ tget b.code 37 = some 39 := by decide

/-- R29, R60: y_A = 619 at a step of 16 lies between 38 and 39 steps: whatever the readings say, a sound code is one of the two. -/
theorem test_sound_code_is_faithful : codeOf 0 (soundFine 0 619 4 (-900)) = 38 ∧ codeOf 0 (soundFine 0 619 4 900) = 39 := by decide

/-- Section 12: S₊ = 6,229 and S₋ = −6,181 give g = 16,223 and o = 3, and r = 261 at +32 steps passes. -/
theorem test_trims_worked : newTrim 0 (6229, -6181) = some (16223, 3) ∧ verifyOk (16223, 3) 261 32 = true := by decide

/-- Section 6: the first op word. -/
theorem test_op_word_worked :
    let w := 0x01400050228FFFF29200090000000000
    opCycle w = 20480 ∧ opClass w = 1 ∧ opPred w = 1 ∧ opLayer w = 2 ∧ opBay w = 40 := by decide

/-- Section 17: the words of tenant 9. -/
theorem test_tenant_words_worked :
    let s := (((up.setWord 0x20240 0xA170000000000001).setWord 0x20248 0x0002000000000042).setWord 0x20250 0x008000200078008C).setWord 0x20258 0x0000002800000800
    s.tenCwy 9 = 0 ∧ s.tenPasid 9 = 0x42A17 ∧ s.tenShare 9 = true ∧ s.tenPrio 9 = 0 ∧ s.tenItl 9 = 140 ∧ s.tenFtl 9 = 120 ∧ s.tenActive 9 = 32 ∧
      s.tenTracked 9 = 4096 ∧ s.tenPrompt 9 = 2048 ∧ s.tenCtx 9 = 10240 := by decide

/-- Section 15: a SUBMIT whose prompt exceeds max_prompt completes at CQ slot 808 with phase 1 and 0x67. -/
theorem test_completion_worked :
    let d := desc [(0, 1, 1), (24, 4, 2000), (28, 4, 4)]
    let s := submitting d
    let s := { s.setWord 0x14008 (10 * 2 ^ 26 + 12 * 2 ^ 31 + 2 ^ 36) with host := { s.host with rings := [(0, { state := 1, fetched := [(5118, d)], outstanding := 4080, cqTail := 9000 })] } }
    (match exec (.submit 0) s with
     | .next t => (t.ring 0).cqTail == 9001 && t.out.any (fun o => match o with
        | .hostWrite _ a b => a == 4096 + 32 * 808 && getLe b 12 4 == 1 + 5 * 256 + 0x67 * 65536 + 2 ^ 24
        | _ => false)
     | _ => false) = true := by decide

/-- R331, R337: the identity and route rules on a row of two: the lead reaches member 1 over +X. -/
theorem test_route_of_two : (pair 0 up).route 0 ((pair 0 up).here 0) (1, 0, 0) = some 0 ∧ (pair 1 up).route 0 ((pair 1 up).here 0) (0, 0, 0) = some 3 := by decide

/-- R302: at a droop the dies skip, a slew freezes. -/
theorem test_droop_skips_all : (match exec (.droopTrip 2) (pwAt { slew := some false }) with | .next t => bit t.pw.droop 2 && t.pw.skipping && t.pw.frozen | _ => false) = true := by decide

/-- R370: a ring whose sq_log2 is below 6 is not enabled and gives 0x61. -/
theorem test_ring_enable_refused : (match exec (.ringEnable 3) up with | .next t => (t.ring 3).state == 0 && (t.ring 3).reason == 0x61 | _ => false) = true := by decide

/-- R398: with every epoch fuse burnt the Ledger is not re-initialised. -/
theorem test_reinit_refused :
    (match exec .recReinitLedger { mgtAt { stage := 0x0F, failCause := 4 } with nv := { epoch := 15 } } with
     | .next t => t.nv.epoch == 15 && t.mgt.recResult == 5 && t.mgt.recStat == 9 | _ => false) = true := by decide

/-- R113: a wait whose arrival completed 8 cycles before its placed cycle passes; one cycle later it stalls. -/
theorem test_wait_margin :
    let s := fun (x : Nat) => (headed (wait1 1 2) (bodyRun { start := 16 })).modCwy 0 (fun y => { y with arrivals := [ArrRec.mk 0 1 2 (some x) 0] })
    (match exec (.wait op0 [{ rxbuf := 1, tag := 2 }]) (s 8) with | .next t => (t.cwy 0).run.wait == none | _ => false) = true ∧
    (match exec (.wait op0 [{ rxbuf := 1, tag := 2 }]) (s 9) with | .next t => (t.cwy 0).run.wait != none | _ => false) = true := by decide

/-- R11: HBM ends at 384 GiB. -/
theorem test_hbm_ends : hbmIn (384 * 2 ^ 30 - 64) 64 = true ∧ hbmIn (384 * 2 ^ 30 - 64) 65 = false := by decide

/-- A step on an empty queue advances the reference counter by one tick. -/
theorem test_idle_step : (match step up with | .next t => t.pw.refTicks == 1 | _ => false) = true := by decide

/-- FIPS 202: SHAKE256 of the empty string; FIPS 197, appendix C.3: AES-256. -/
theorem test_shake_empty : shake 4 [] = [0x46, 0xB9, 0xDD, 0x2B] := by decide +kernel
theorem test_aes_vector :
    aesBlock (aesKeys ((List.range 32).map (BitVec.ofNat 8))) ((List.range 16).map (fun i => 17 * i)) =
      [0x8E, 0xA2, 0xB7, 0xCA, 0x51, 0x67, 0x45, 0xBF, 0xEA, 0xFC, 0x49, 0x90, 0x4B, 0x49, 0x60, 0x89] := by decide +kernel
/-- SP 800-38D, test case 14: one zero block under a zero key and IV. -/
theorem test_gcm_vector : (gcmSeal (zeros 32) (zeros 12) [] (zeros 16)).2.take 4 = [0xD0, 0xD1, 0xC8, 0xA7] := by decide +kernel

/-- ISO/IEC 18004 (QR code), the generator of degree 16 over the same field with roots α^0 to α^15, as exponents of α. -/
theorem test_rs_generator : rsGen = [0, 120, 104, 107, 109, 102, 161, 76, 3, 91, 191, 147, 169, 182, 194, 225, 120].map gfExp := by decide +kernel

/-! ### States that meet the further hypotheses of the statements -/

theorem wit_RegisterWritesStoreWhatTheCardSays_stored :
    (up.holding = false ∧ up.mgt.stage = 8 ∧ rwlMask 0x40048 = some (0x3FFFF + 0xFFFF * 2 ^ 32 + 0xF * 2 ^ 48 + 0x1F * 2 ^ 56)) ∧
    (accessWord 0xA0044 4 = some 0xA0040 ∧ 0xA0044 < 0xF8000) ∧
    (let s := behind .host up
     accessWord 0x40000 8 = some 0x40000 ∧ reinitWrite .host 0x40000 8 1 = false ∧ s.accessWaits .host 0x40000 = true ∧ s.running) ∧
    up.hdmFixed = false := by decide

theorem wit_ClocksSkipAndStop_again :
    (let s := pwAt { droop := 129, tripped := 128 }; bit s.pw.droop 0 = true ∧ s.pw.tripped ≠ 0 ∧ bit s.pw.clkStopped 0 = false) ∧
    (up.pw.vrAlert = false ∧ up.pw.shutdown = false ∧ up.mgt.hkStopped = false) := by decide

theorem wit_RailsAreSearchedAndMeasured_read :
    (let s := { up with en := { up.en with devPj := 1200000, unattrPj := 600000, cwyPj := [(63, 600000)] } }
     s.mgt.stage = 8 ∧ s.en.devPj < 2 ^ 64 ∧ ((List.range 64).map (fun c => tgetD s.en.cwyPj c 0)).sum ≤ s.en.devPj) := by decide

theorem wit_PowerStaysUnderItsCap_stopped : stopped.running ∧ stopped.mgt.hkStopped = true := by decide

theorem wit_BeatsStartOnReadyPiers_several :
    (let s := headed (word 1 [(68, 3), (40, 255)]) (bodyBay { piers := [(0, { state := 2 }), (1, { state := 2 })] })
     s.issues op0 (isBeat op0 0 3 0 0 255) = true ∧ maskPiers 3 = [(0, 0), (1, 1)] ∧ s.pstate (bayNo 0 0) (s.phys (bayNo 0 0) 1) = 2 ∧
      (∀ e ∈ maskPiers 3, e.2 ≠ 1 → s.phys (bayNo 0 0) e.2 ≠ s.phys (bayNo 0 0) 1) ∧ ∀ e ∈ maskPiers 3, s.phys (bayNo 0 0) e.2 = 2 → s.pstate (bayNo 0 0) 2 ≠ 2) := by
  decide

theorem wit_SlotsAddWhatIsDue_several :
    (let s := bodyBay { contribs := [contrib5, { contrib5 with slot := 30 }, { contrib5 with slot := 0 }] }
     s.dieOn 0 = true ∧ (s.bay (bayNo 0 0)).beats = [] ∧ (∀ c ∈ (s.bay (bayNo 0 0)).contribs, c.due = 5) ∧ (s.bay (bayNo 0 0)).clears = [] ∧
      (s.bay (bayNo 0 0)).lastRead = none ∧ 2 < (slotsOf (s.bay (bayNo 0 0)).contribs).length) ∧
    (∀ f ∈ [0, 31, 32, 33, 34], let s := bodyBay { combine := some combine31, inbound := [inbound9 f] }
     (s.bay (bayNo 0 0)).combine = some combine31 ∧ s.dues (bayNo 0 0) 9 = [] ∧ (s.cwy combine31.cwy).flights = [] ∧
      (s.bay (bayNo 0 0)).inbound.find? (fun x => x.f == f && x.due == 9) = some (inbound9 f)) := by decide

theorem wit_GirderRoutinesRunAndReportErrors_kernels :
    (let s := headed (word 6 []) body
     s.issues op0 (isGirder op0 0 0 0 0) = true ∧ (s.girder (girNo 0 0)).run = none ∧ s.shadow (bayNo 0 5) 15 = none) ∧
    (let s := headed (word 6 []) { body with bays := [(bayNo 0 0, { desc := [(0, (0, 3, 4096))] })] }
     s.issues op0 (isGirder op0 0 0 0 0) = true ∧ (s.girder (girNo 0 0)).run = none ∧ s.shadow (bayNo 0 0) 0 = some (0, 3, 4096)) ∧
    (inRoutine.running ∧ inRoutine.girRuns gi0 = true ∧ 1 ≤ 64 ∧ 64 ≤ 64 ∧ SaOp.and ≠ SaOp.setPred 0) := by decide

theorem wit_TransfersMoveTheirBytes_there :
    (let s := headed (word 8 [(38, 2097151), (26, 2)]) body
     s.issues op0 (isHbm op0 8 0 2097151 2) = true ∧ belowWindow 0 2 = 2 ∧ ∀ k < 2, hbmIn (s.carveBase 0 + 64 * s.bankUnit 0 1 (0 + k)) 64 = true) ∧
    (let s := carveAt 196607 (headed (word 9 [(59, 32767), (26, 2)]) body)
     s.issues op0 (isHbm op0 9 32767 0 2) = true ∧ ∃ k < belowWindow 32767 2, ¬ hbmIn (s.carveBase 0 + 64 * s.bankUnit 0 1 (32767 + k)) 64 = true) := by decide

/-- The whole vote of member 1 for member 0 in one frame, its last. -/
def wireL : Bytes := leBytes 56 0xafee1b97074ef9b6caafd6446cd77ce661615b01ae0cc280ef923656638dec0127c3636f3aa388a600000000000000000001000000002002 ++
  leBytes 56 0xbf2330363cc1b94fce4c6369cf8103d9d887c27ff8bfd22e85947de66d9a9cd1096cb93971d4d877a939429d2c043fee941a47d7c419b299 ++
  leBytes 56 0xc2b3a13c76c49983a2e714a6381f37277ef91348431fa6787ffeff263d9275edd547b590e5095d8e039684262a4cb3ae5572e6171e31fae5 ++
  leBytes 56 0x2433e9e22df059ee753f9bf610382ec1596ca1356332029973f720b3052f0fe849ad96c94d19c8a6cf3e05ddb6429792ec7cfbe399ba2fd ++
  leBytes 56 0x6a4a22ad69c9ff2b3a60be452dcd57aeb3669bf7bbd37ce3dffe565ec5101046b6087b6428e436f87f4bd9fb06ffbd408d48c0f5a7552a3d ++
  leBytes 56 0x3c11ef354c1221235c6fea34fd9ed914c713ac98f2241f25d263c37aed22590dcab208d3c7ec0809391cec1bf9902ec3c1f8d05be02d29e3 ++
  leBytes 56 0x98575a4645cdfe704d1cba901f722d73d6c6f0793a04e3ea6a72c815aeb5c6c5c01bbf3640847b85538765b349cd751c2541b75b4c48b06e ++
  leBytes 56 0xc458ce400d588ee83193df73a4e2a9b265fc86155acc8b6e5c25dc85711fc14d9619414dcce5f398e79ba7496dfadac7c02b7a7cb485523e

set_option maxRecDepth 200000 in
theorem wit_VotesGatherOrTimeOut_merge :
    (let s := upPort (pair 0 (keyAt .running { own := some vote0 }))
     s.running ∧ s.inState 0 [.running, .stopping] = true ∧ (s.cwy 0).key.own = some vote0 ∧ (s.cwy 0).key.sent = false ∧ s.children 0 = [1] ∧
      (openKey 0 (keyFrame wireL) s).1.2.isSome = true ∧ s.keyStream 0 2 1 (openKey 0 (keyFrame wireL) s).1.1 = true ∧
      fLast (openKey 0 (keyFrame wireL) s).1.1 = true ∧ s.isLead 0 = true) := by decide +kernel

set_option maxRecDepth 200000 in
theorem wit_ReleasesTakeEffect_complete :
    (let s := upPort (pair 1 (keyAt .running { sent := true, own := some vote0, relFrames := [(1, zeros 384)], relLast := some 1 }))
     let x := openKey 0 (keyFrame wireR) s
     let b := x.1.1
     x.1.2.isSome = true ∧ s.keyStream 0 3 0 b = true ∧ tget (s.cwy 0).key.relFrames (fOff b) = none ∧
      (let u := (passRelease 0 (fOff b) (fLast b) (x.1.2.getD []) x.2).modKey 0 (fun k => { k with
          relFrames := tset k.relFrames (fOff b) (x.1.2.getD []), relLast := if fLast b then some (fOff b) else k.relLast, relNak := k.relNak.filter (· != fOff b) })
       (u.cwy 0).key.relStream.isSome = true ∧ u.quiet 0 ∧ (u.cwy 0).life.state = .running ∧ (u.cwy 0).key.kind = 0)) := by decide +kernel

theorem wit_ReleasesTakeEffect_running :
    (let s := keyAt .running { own := some vote0, release := some { good := true, idle := true } }
     s.running ∧ s.isLead 0 = true ∧ (s.cwy 0).key.release = some { good := true, idle := true } ∧ s.quiet 0 ∧
      ((s.cwy 0).life.state = .running ∨ (s.cwy 0).life.state = .stopping) ∧ (s.cwy 0).key.kind = 0 ∧ s.glideOwner = some 0 ∧
      ((s.cwy 0).run.adm.map (·.handle)).Nodup) ∧
    (let s := withReq req0 (bodyRun { adm := [{ adm0 with slot := 0 }] })
     s.req 0 = some req0 ∧ req0.isComp = false ∧ ((s.cwy 0).run.adm.map (·.handle)).Nodup ∧ ∀ e ∈ s.reqs, e.2.companion ≠ some 0) ∧
    (let s := (keyAt .running {}).modW 0 (fun w => { w with replace := some { ring := 0, dindex := 0, tag := [], first := 3, count := 1 }, staged := [(3, layer0)] })
     (s.cwy 0).w.nextLayer = some 3 ∧ tget (s.cwy 0).w.staged 3 = some layer0 ∧ layer0.model = 0) := by decide

theorem wit_LifecycleOrdersMoveTheCarriageway_halt :
    (let s := { checking (.enable 3) 0 with ras := { haltSafe := true } }
     s.running ∧ s.chain.held = [] ∧ (s.chain.check.map (fun k => (k.kind, k.path, k.verdict))) = some (.enable 3, .host, 0) ∧ s.ras.haltSafe = true) := by decide

/-- Carriageway 0's carve-out of granules 5 to 8, of which granules 5 and 9 are protected. -/
def guarded : State := { carveAt (5 + 4 * 2 ^ 32) up with host := { up.host with prot := [5, 9] } }

theorem wit_GrantsAreWrittenOnlyWhileDisabled_gone :
    (guarded.running ∧ guarded.mgt.stage = 8 ∧ guarded.holding = false ∧ guarded.chain.slot = none ∧ (guarded.cwy 0).life.state = .disabled ∧
      5 ∈ guarded.host.prot ∧ 9 ∈ guarded.host.prot ∧ memWf guarded.hbm = true) ∧
    (5 ∈ guarded.granules 0 ∧ 9 ∉ guarded.granules 0) := by decide

theorem wit_WeightOrdersBeginTheirWork_stopped :
    (let s := withW { staged := [(0, layer0)] } (waiting 1024 dReplace)
     s.serves 1024 ∧ (s.ring 1024).fetched = (5, dReplace) :: [] ∧ s.descCode 1024 8 dReplace = 0 ∧ (s.cwy 0).w.replace = none ∧
      s.inState 0 [.disabled, .stopped] = true ∧ s.replaceBusy 0 = false ∧ 0 < getLe dReplace 17 1 ∧ s.stagedClash 0 [0] = false ∧
      tget (s.cwy 0).w.staged (getLe dReplace 16 1) = some layer0 ∧ s.layerClash layer0 = false ∧
      ∃ e ∈ layer0.piers, s.pstate (bayNo e.1.1 e.1.2.1) (s.phys (bayNo e.1.1 e.1.2.1) e.1.2.2) ≠ 3) ∧
    (let s := { withW { staged := [(0, layer0)] } (waiting 1024 dReplace) with
       hbm := memPut [] (8192 + 137514) [1], bays := [(0, { bulk := [(3, { src := 8192, cwy := 1, why := 0, logical := 3, on := true })] })] }
     s.stagedClash 0 [0] = false ∧ s.replaceBusy 0 = false ∧ s.layerClash layer0 = decide (s.modeAt 8192 ≠ s.modeAt 4096)) := by
  decide +kernel

theorem wit_BundlesAreCheckedThenInstalled_others :
    (let l := { load0 with slot := 9 }
     let s := { up with cwys := [(0, { w := { spLoads := [l] } })], spandrels := [(9, { state := 1 })] }
     s.running ∧ (s.cwy 0).w.loadWait = [] ∧ s.spLoad 0 9 = some l ∧ l.chunk < l.chunks) ∧
    (let l := { load0 with slot := 9, chunk := 1 }
     let s := { up with cwys := [(0, { life := { state := .stopped }, w := { spLoads := [l] } })], spandrels := [(9, { state := 1 })] }
     s.running ∧ s.spLoad (s.sp 9).cwy 9 = some l ∧ l.chunks ≤ l.chunk ∧ s.inState (s.sp 9).cwy [.running] = false) := by decide

theorem wit_CalibrationPassesGiveTrims_heat :
    (let s := shadowed { calLeft := some 1 }; s.mayHeat (bayNo 0 0) = true) := by decide

theorem wit_DemandsAndLedgerRecordFaults_pending :
    (∀ f ∈ up.ras.pend, ∃ c < 64, up.unitUsed c f.unit = true) ∧
    (let s := rasAt { pend := [{ unit := .bay 5 255 }] }
     s.ras.demands = [] ∧ s.ras.queue = [] ∧ s.ras.pend = [{ unit := .bay 5 255 }] ∧ ∀ c < 64, s.unitUsed c (.bay 5 255) = false) ∧
    (up.mgt.stage = 8 ∧ up.waitsBehind .fleet = false ∧ (behind .fleet up).waitsBehind .fleet = true) ∧ up.waitsBehind .host = false ∧
    (behind .host up).waitsBehind .host = true := by decide

/-- The windows of `mapped 1`, with line 0 owed by the host. -/
def owing : State := let s := mapped 1; { s with host := { s.host with snooped := [(0, 1)] } }

theorem wit_WindowMapsAndHostAccesses_owed :
    (up.chain.slot = none ∧ up.waitsBehind .host = false ∧ (behind .host up).waitsBehind .host = true) ∧
    (owing.hdmMapped 0 64 = true ∧ (landNow owing).writesBack (linesOf 0 64) = true ∧ (landNow owing).writesBack (linesOf 64 64) = false ∧
      memWf (landNow owing).hbm = true) := by decide

end Sys2Proof.Tests
end

section
/-! How the oldest descriptor of a ring is refused at validation: what writing towards the host keeps, what a
completion writes, and the one refusal that all kinds share (R438, R164). -/

namespace Sys2Proof.Machine

/-! ### What goes out to the host moves no ring and takes back no output -/

/-- The rings are as they were, and every output stays sent. -/
def RingsStand (s t : State) : Prop := t.host.rings = s.host.rings ∧ s.out ⊆ t.out

theorem RingsStand.refl (s : State) : RingsStand s s := ⟨rfl, List.Subset.refl _⟩

theorem RingsStand.trans {s t u : State} (h : RingsStand s t) (k : RingsStand t u) : RingsStand s u :=
  ⟨k.1.trans h.1, List.Subset.trans h.2 k.2⟩

theorem RingsStand.ring {s t : State} (h : RingsStand s t) (r : Nat) : t.ring r = s.ring r := by simp [State.ring, h.1]

theorem modHost_ringsStand (s : State) {f : HostIf → HostIf} (h : (f s.host).rings = s.host.rings) : RingsStand s (s.modHost f) :=
  ⟨h, List.Subset.refl _⟩

theorem emit_ringsStand (o : Output) (s : State) : RingsStand s (emit o s) := ⟨rfl, List.subset_cons_self _ _⟩

theorem foldS_ringsStand {α : Type} {f : State → α → State} (hf : ∀ s a, RingsStand s (f s a)) (l : List α) (s : State) :
    RingsStand s (foldS l f s) :=
  foldS_inv (RingsStand s) f (fun t a h => h.trans (hf t a)) l s (.refl s)

theorem cacheAtc_ringsStand (p : Option Nat) (a n : Nat) (s : State) : RingsStand s (cacheAtc p a n s) := by
  rw [cacheAtc]
  split
  · exact foldS_ringsStand (fun t _ => (modHost_ringsStand t rfl).trans (emit_ringsStand _ _)) _ s
  · exact .refl s

theorem hostWrite_ringsStand (p : Option Nat) (a : Nat) (b : Bytes) (s : State) : RingsStand s (hostWrite p a b s) := by
  rw [hostWrite]
  split
  · exact .refl s
  · exact (cacheAtc_ringsStand p a b.length s).trans (emit_ringsStand _ _)

theorem raise_ringsStand (v : Nat) (s : State) : RingsStand s (raise v s) := by
  rcases raise_cases v s with ⟨_, _, h⟩ | ⟨_, _, h⟩ | ⟨_, _, h⟩ <;> rw [h]
  · exact emit_ringsStand _ s
  · exact .refl s
  · exact modHost_ringsStand s rfl

theorem raiseSpaced_ringsStand (v : Nat) (s : State) : RingsStand s (raiseSpaced v s) := by
  simp only [raiseSpaced]
  split
  · exact (modHost_ringsStand s rfl).trans (raise_ringsStand v _)
  · split
    · exact .refl s
    · exact modHost_ringsStand s rfl

/-- The status lines and vectors after a completion move no ring (R369). -/
theorem flush_ringsStand (b s : State) : RingsStand s (flush b s) :=
  (foldS_ringsStand (fun t _ => hostWrite_ringsStand _ _ _ t) _ s).trans
    (foldS_ringsStand (fun t v => raiseSpaced_ringsStand v t) _ _)

/-! ### A completion on a ring that is ON -/

/-- Until an orderly shutdown has ended, a write to host memory goes out (Table 13.4). -/
theorem hostWrite_mem_out {s : State} (h : s.pw.shutEnded = false) (p : Option Nat) (a : Nat) (b : Bytes) :
    .hostWrite p a b ∈ (hostWrite p a b s).out := by
  simp [hostWrite, h, emit]

theorem complete_eq_cqWrite {s : State} {r : Nat} (h : (s.ring r).state = 1) (tag : Bytes) (i k st re fl a b : Nat) :
    complete r tag i k st re fl a b s = cqWrite r (cplRecord tag i k st re fl a b) s := by
  simp [complete, h]

theorem cqWrite_ring (r : Nat) (b : Bytes) (s : State) :
    (cqWrite r b s).ring r = { s.ring r with
      cqTail := ((s.ring r).cqTail + 1) % 2 ^ 32, outstanding := (s.ring r).outstanding - 1
      wrote := (b :: (s.ring r).wrote).take 64 } := by
  simp [cqWrite, (hostWrite_ringsStand _ _ _ s).ring r]

/-- A completion on a ring that serves still stands after what is sent later. -/
theorem complete_completes {s t : State} {r i k st re a b : Nat} {d : Bytes} (hs : s.serves r)
    (h : RingsStand (complete r (slice d 8 8) i k st re 0 a b s) t) : Completes r i d k st re a b s t := by
  obtain ⟨-, hon, hpw⟩ := hs
  rw [complete_eq_cqWrite hon] at h
  refine ⟨h.2 (hostWrite_mem_out hpw _ _ _), ?_, ?_⟩ <;> rw [h.ring, cqWrite_ring]

theorem complete_fetched {s : State} {r : Nat} (h : (s.ring r).state = 1) (tag : Bytes) (i k st re fl a b : Nat) :
    ((complete r tag i k st re fl a b s).ring r).fetched = (s.ring r).fetched := by
  rw [complete_eq_cqWrite h, cqWrite_ring]

/-! ### The refusal that all kinds share -/

/-- The oldest descriptor of a ring taken for validation: the others wait on, and the validation is counted. -/
def takeOldest (r : Nat) (rest : List (Nat × Bytes)) (s : State) : State :=
  { s.modRing r (fun x => { x with fetched := rest }) with nOrders := s.nOrders + 1 }

@[simp] theorem takeOldest_ring (r : Nat) (rest : List (Nat × Bytes)) (s : State) :
    (takeOldest r rest s).ring r = { s.ring r with fetched := rest } := s.modRing_ring r _

theorem takeOldest_serves {s : State} {r : Nat} (rest : List (Nat × Bytes)) (hs : s.serves r) : (takeOldest r rest s).serves r := by
  obtain ⟨hrun, hon, hpw⟩ := hs
  exact ⟨hrun, by simpa using hon, hpw⟩

/-- The descriptor d at index i, taken from ring r, has completed REFUSED with a code and was not acted on. -/
def RefusedOnly (r i k code : Nat) (d : Bytes) (rest : List (Nat × Bytes)) (s t : State) : Prop :=
  Completes r i d k 5 code 0 0 s t ∧ (t.ring r).fetched = rest ∧ ∃ h o, t = { s with host := h, out := o, nOrders := s.nOrders + 1 }

/-- Taking the oldest descriptor and refusing it does nothing else. -/
theorem flush_refuse_refusedOnly {s : State} {r : Nat} (hs : s.serves r) (b : State) (i k code : Nat) (d : Bytes)
    (rest : List (Nat × Bytes)) : RefusedOnly r i k code d rest s (flush b (refuse r i k code d (takeOldest r rest s))) := by
  have hu := takeOldest_serves rest hs
  have ⟨_, hon, _⟩ := hu
  have hf := flush_ringsStand b (refuse r i k code d (takeOldest r rest s))
  refine ⟨?_, ?_, ?_⟩
  · have hc : Completes r i d k 5 code 0 0 (takeOldest r rest s) _ := complete_completes hu hf
    simp only [Completes, takeOldest_ring] at hc
    exact hc
  · rw [hf.ring, refuse, complete_fetched hon, takeOldest_ring]
  · exact (complete_hostOnly ..).trans (flush_hostOnly b _)

/-- R438 and then the rules of the kind, for the oldest descriptor when it is of the kind and form. -/
theorem judgeOn_eq {s : State} {r i k : Nat} {d : Bytes} {rest : List (Nat × Bytes)} {sel : Bytes → Bool}
    (f : Nat → Bytes → State → State) (hd : (s.ring r).fetched = (i, d) :: rest) (hk : getLe d 0 1 = k) (hsel : sel d = true) :
    judgeOn r k sel f s = flush s (if s.descCode r k d != 0 then refuse r i k (s.descCode r k d) d (takeOldest r rest s)
      else f i d (takeOldest r rest s)) := by
  simp only [judgeOn, hd]
  rw [if_neg (by simp [hk, hsel])]
  rfl

/-- R438: a descriptor that one of the checks refuses never reaches the rules of its kind. -/
theorem judgeOn_refusedOnly {s : State} {r i k : Nat} {d : Bytes} {rest : List (Nat × Bytes)} {sel : Bytes → Bool}
    (f : Nat → Bytes → State → State) (hs : s.serves r) (hd : (s.ring r).fetched = (i, d) :: rest) (hk : getLe d 0 1 = k)
    (hsel : sel d = true) (hc : s.descCode r k d ≠ 0) : RefusedOnly r i k (s.descCode r k d) d rest s (judgeOn r k sel f s) := by
  rw [judgeOn_eq f hd hk hsel, if_pos (bne_iff_ne.mpr hc)]
  exact flush_refuse_refusedOnly hs ..

/-- R5: a descriptor of a reserved kind is refused with 0x60. -/
theorem reservedKindOp_refusedOnly {s : State} {r i : Nat} {d : Bytes} {rest : List (Nat × Bytes)} (hs : s.serves r)
    (hd : (s.ring r).fetched = (i, d) :: rest) (hk : getLe d 0 1 < 1 ∨ 11 < getLe d 0 1) :
    RefusedOnly r i (getLe d 0 1) 0x60 d rest s (reservedKindOp r s) := by
  have h : reservedKindOp r s = flush s (refuse r i (getLe d 0 1) 0x60 d (takeOldest r rest s)) := by
    simp [reservedKindOp, hd, takeOldest, show ¬(1 ≤ getLe d 0 1 ∧ getLe d 0 1 ≤ 11) by omega]
  rw [h]
  exact flush_refuse_refusedOnly hs ..

/-! ### The refusal as a command -/

/-- What a command of the plain or the storing form restores is what a refusal leaves alone anyway. -/
theorem RefusedOnly.keepNv {r i k code : Nat} {d : Bytes} {rest : List (Nat × Bytes)} {s t : State}
    (h : RefusedOnly r i k code d rest s t) : RefusedOnly r i k code d rest s (keepNv s t) := by
  obtain ⟨hc, hf, g, o, rfl⟩ := h
  exact ⟨hc, hf, { g with perst := s.host.perst }, o, rfl⟩

theorem RefusedOnly.keepMem {r i k code : Nat} {d : Bytes} {rest : List (Nat × Bytes)} {s t : State}
    (h : RefusedOnly r i k code d rest s t) : RefusedOnly r i k code d rest s (keepMem s t) := by
  obtain ⟨hc, hf, g, o, rfl⟩ := h
  exact ⟨hc, hf, { g with perst := s.host.perst }, o, rfl⟩

/-- The command judges the oldest descriptor of ring r under R438 when it is of kind k and of a form that d has. -/
def JudgesAs (c : Instr) (r k : Nat) (d : Bytes) : Prop :=
  ∃ sel f, ((∀ s, exec c s = go s (judgeOn r k sel f)) ∨ ∀ s, exec c s = goMem s (judgeOn r k sel f)) ∧ sel d = true

/-- A kind with one form. -/
theorem judge_judgesAs {c : Instr} {r k : Nat} {f : Nat → Bytes → State → State} (d : Bytes)
    (h : (∀ s, exec c s = go s (judge r k f)) ∨ ∀ s, exec c s = goMem s (judge r k f)) : JudgesAs c r k d := ⟨fun _ => true, f, h, rfl⟩

/-- An order on a request. -/
theorem onTag_judgesAs {c : Instr} {r k : Nat} {f : Nat → Req → Nat → Bytes → State → State} (d : Bytes)
    (h : (∀ s, exec c s = go s (onTag r k f)) ∨ ∀ s, exec c s = goMem s (onTag r k f)) : JudgesAs c r k d := by
  unfold onTag at h
  exact judge_judgesAs d h

/-- The eleven kinds of descriptor and their commands (Table 7.2); a LOAD_WEIGHTS descriptor has two forms (R212, R214). -/
theorem judgesAs_of_mem {r : Nat} {d : Bytes} {f : ReadFail} {k : Nat} {c : Instr}
    (h : (k, c) ∈ [(1, .submit r), (2, .cancel r), (3, .pause r), (4, .resume r), (5, .query r), (6, .fetchCert r),
      (7, if getLe d 1 1 = 1 then .loadWeightsKeyEnvelope ⟨r, f⟩ else .loadWeights r), (8, .replaceLayer r), (9, .loadSpandrel r),
      (10, .retireSpandrel r), (11, .hint r)]) : JudgesAs c r k d := by
  simp only [List.mem_cons, Prod.mk.injEq, List.not_mem_nil, or_false] at h
  rcases h with ⟨rfl, rfl⟩ | ⟨rfl, rfl⟩ | ⟨rfl, rfl⟩ | ⟨rfl, rfl⟩ | ⟨rfl, rfl⟩ | ⟨rfl, rfl⟩ | ⟨rfl, rfl⟩ | ⟨rfl, rfl⟩ |
    ⟨rfl, rfl⟩ | ⟨rfl, rfl⟩ | ⟨rfl, rfl⟩
  · exact judge_judgesAs d (.inl fun _ => rfl)
  · exact onTag_judgesAs d (.inl fun _ => rfl)
  · exact onTag_judgesAs d (.inr fun _ => rfl)
  · exact onTag_judgesAs d (.inl fun _ => rfl)
  · exact onTag_judgesAs d (.inl fun _ => rfl)
  · exact judge_judgesAs d (.inl fun _ => rfl)
  · split
    · exact ⟨_, _, .inl fun _ => rfl, beq_iff_eq.mpr ‹_›⟩
    · exact ⟨_, _, .inl fun _ => rfl, bne_iff_ne.mpr ‹_›⟩
  · exact judge_judgesAs d (.inl fun _ => rfl)
  · exact judge_judgesAs d (.inl fun _ => rfl)
  · exact judge_judgesAs d (.inl fun _ => rfl)
  · exact judge_judgesAs d (.inl fun _ => rfl)

/-- A command that judges the descriptor completes, and a descriptor that fails a check is refused by it. -/
theorem JudgesAs.refuses {c : Instr} {r i k : Nat} {d : Bytes} {rest : List (Nat × Bytes)} {s : State} (h : JudgesAs c r k d)
    (hs : s.serves r) (hd : (s.ring r).fetched = (i, d) :: rest) (hk : getLe d 0 1 = k) (hc : s.descCode r k d ≠ 0) :
    Goes c s (RefusedOnly r i k (s.descCode r k d) d rest s) := by
  obtain ⟨sel, f, hgo | hgo, hsel⟩ := h
  · exact ⟨_, (hgo s).trans (go_run hs.1 _), (judgeOn_refusedOnly f hs hd hk hsel hc).keepMem.keepNv⟩
  · exact ⟨_, (hgo s).trans (goMem_run hs.1 _), (judgeOn_refusedOnly f hs hd hk hsel hc).keepNv⟩

/-- Settles O41: every kind is judged by the same checks, and a refusal only completes the descriptor. -/
theorem descriptorsAreRefusedInOrder : Obligations.DescriptorsAreRefusedInOrder := by
  unfold Obligations.DescriptorsAreRefusedInOrder
  intro r i d rest f s hs hd
  refine ⟨fun k c hkc hk hc => (judgesAs_of_mem hkc).refuses hs hd hk hc, fun hk => ?_⟩
  exact ⟨_, go_run hs.1 _, (reservedKindOp_refusedOnly hs hd hk).keepMem.keepNv⟩

end Sys2Proof.Machine
end

section
/-! Which commands touch otp_svn (R394): of those that write OTP or flash only COMMIT_SVN_DONE changes it, and every
other command is of a form that keeps it. A boot header whose svn is lower is refused (R391). -/

namespace Sys2Proof.Machine

/-! ### The forms of a command -/

theorem go_otpSvn {s t : State} {f : State → State} (h : go s f = .next t) : t.nv.otpSvn = s.nv.otpSvn := by
  obtain ⟨-, hnv, -⟩ := go_frame h
  rw [hnv]

theorem goMem_otpSvn {s t : State} {f : State → State} (h : goMem s f = .next t) : t.nv.otpSvn = s.nv.otpSvn := by
  obtain ⟨-, hnv, -⟩ := goMem_frame h
  rw [hnv]

/-- A burning command leaves OTP and flash as its effect does, or does nothing while PERST_N is asserted. -/
theorem goNv_nv {s t : State} {f : State → State} (h : goNv s f = .next t) : t.nv = s.nv ∨ t.nv = (f s).nv := by
  simp only [goNv, Host.Outcome.next.injEq] at h
  split at h <;> subst h <;> simp

theorem goNv_otpSvn {s t : State} {f : State → State} (hf : (f s).nv.otpSvn = s.nv.otpSvn) (h : goNv s f = .next t) :
    t.nv.otpSvn = s.nv.otpSvn := by
  rcases goNv_nv h with hnv | hnv <;> rw [hnv]
  exact hf

/-- A command that may fault at a missing HBM address answers next only where it does not. -/
theorem eq_next_of_ite_fault {b : Prop} [Decidable b] {e : Fault} {o : Host.Outcome State Fault Refusal} {t : State}
    (h : (if b then .fault e else o) = .next t) : o = .next t := by
  split at h
  · cases h
  · exact h

/-! ### Reinitialising the Ledger burns an epoch fuse only (R398) -/

@[simp] theorem ledgerAppend_nv (r : Bytes) (s : State) : (ledgerAppend r s).nv = s.nv := rfl

@[simp] theorem bootRecords_nv (dies : List Nat) (s : State) : (bootRecords dies s).nv = s.nv :=
  foldS_keeps State.nv _ (fun s r => ledgerAppend_nv r s) _ s

@[simp] theorem recRefuse_nv (cause : Nat) (s : State) : (recRefuse cause s).nv = s.nv := rfl

theorem recReinitOp_otpSvn (s : State) : (recReinitOp s).nv.otpSvn = s.nv.otpSvn := by
  unfold recReinitOp
  split
  · rfl
  · split
    · rfl
    · simp

/-! ### A received image changes the flash image only (R393) -/

@[simp] theorem recVerify_nv (s : State) : (recVerify s).nv = s.nv := by
  unfold recVerify
  split
  · rfl
  · split <;> simp

@[simp] theorem startImage_nv (h code : Bytes) (s : State) : (startImage h code s).nv = s.nv := rfl

theorem recProgramOp_otpSvn (programmed readBack : Bool) (s : State) :
    (recProgramOp programmed readBack s).nv.otpSvn = s.nv.otpSvn := by
  simp only [recProgramOp]
  split
  · simp
  · cases programmed <;> simp

/-! ### PERST_N keeps the fuses (R395) -/

@[simp] theorem afterReset_nv (perst : Bool) (s : State) : (afterReset perst s).nv = s.nv := rfl

theorem perstAssertOp_otpSvn (s : State) : (perstAssertOp s).nv.otpSvn = s.nv.otpSvn := by
  unfold perstAssertOp
  split <;> simp

theorem perstDeassertOp_nv (s : State) : (perstDeassertOp s).nv = s.nv := by
  unfold perstDeassertOp
  split <;> simp

/-! ### COMMIT_SVN (R394) -/

/-- With no commit running, or the Housekeeper stopped, nothing completes. -/
theorem commitDoneOp_idle {s : State} (h : s.mgt.hkResult ≠ 1 ∨ s.mgt.hkStopped = true) : commitDoneOp s = s :=
  if_pos (by simpa using h)

/-- A running commit leaves otp_svn at the svn of the running image where that is the higher one. -/
theorem commitDoneOp_nv {s : State} (hres : s.mgt.hkResult = 1) (hk : s.mgt.hkStopped = false) :
    (commitDoneOp s).nv = { s.nv with otpSvn := max s.nv.otpSvn s.mgt.fwSvn } := by
  simp only [commitDoneOp, hres, hk, bne_self_eq_false, Bool.or_self, Bool.false_eq_true, if_false, State.modMgt_nv]
  split
  case isTrue hlt => simp [Nat.max_eq_right (Nat.le_of_lt hlt)]
  case isFalse hle => simp [Nat.max_eq_left (Nat.le_of_not_lt hle)]

/-- A commit that ends and changes otp_svn was running, and raised it to the svn of the running image. -/
theorem commitSvnDone_raises {s t : State} (h : exec .commitSvnDone s = .next t) (hne : t.nv.otpSvn ≠ s.nv.otpSvn) :
    s.mgt.hkResult = 1 ∧ s.nv.otpSvn < s.mgt.fwSvn ∧ t.nv.otpSvn = s.mgt.fwSvn := by
  have hgo : goNv s commitDoneOp = .next t := h
  have hnv : t.nv = (commitDoneOp s).nv := (goNv_nv hgo).resolve_left fun hs => hne (by rw [hs])
  by_cases hidle : s.mgt.hkResult ≠ 1 ∨ s.mgt.hkStopped = true
  · exact absurd (by rw [hnv, commitDoneOp_idle hidle]) hne
  · simp only [not_or, Decidable.not_not, Bool.not_eq_true] at hidle
    obtain ⟨hres, hk⟩ := hidle
    have hmax : t.nv.otpSvn = max s.nv.otpSvn s.mgt.fwSvn := by rw [hnv, commitDoneOp_nv hres hk]
    exact ⟨hres, by omega, by omega⟩

/-- A register write can reinitialise the Ledger, and no write reaches otp_svn. -/
theorem execRegisterWrite_otpSvn {p : Path} {off size : Nat} {val : Word} {s t : State}
    (h : execRegisterWrite p off size val s = .next t) : t.nv.otpSvn = s.nv.otpSvn := by
  unfold execRegisterWrite at h
  split at h
  · exact goNv_otpSvn (recReinitOp_otpSvn s) h
  · exact goMem_otpSvn h

/-- Every command but COMMIT_SVN_DONE leaves otp_svn alone. -/
theorem exec_otpSvn {c : Instr} {s t : State} (hc : c ≠ .commitSvnDone) (h : exec c s = .next t) : t.nv.otpSvn = s.nv.otpSvn := by
  cases c
  case commitSvnDone => exact absurd rfl hc
  case recReinitLedger => exact goNv_otpSvn (recReinitOp_otpSvn s) h
  case recoveryProgramDone p r => exact goNv_otpSvn (recProgramOp_otpSvn p r s) h
  case registerWrite => exact execRegisterWrite_otpSvn h
  case perstNAssert => cases h; exact perstAssertOp_otpSvn s
  case perstNDeassert => cases h; rw [perstDeassertOp_nv]
  -- the effect of this one is a lambda, which unification finds only behind the name of the meaning
  case cxlLinkLoss =>
    have hgo : execCxlLinkLoss s = .next t := h
    exact go_otpSvn hgo
  case hbmRd | hbmWr => exact go_otpSvn (eq_next_of_ite_fault h)
  case hdmAccess | bar2Access => exact goMem_otpSvn (eq_next_of_ite_fault h)
  case stageHbm | partialSumFlitArrival | streamDrainDone | keystone | releaseFrameArrival | consistencyCheckDone | grantWrite
    | bindingCheckDone | pause | restoreBlockRead | bundleChunk | regWrite | frameTransmit | dataFrameArrival => exact goMem_otpSvn h
  all_goals exact go_otpSvn h

/-- A step that changes otp_svn ends a running commit, and burns the higher svn of the running image. -/
theorem step_raises_otpSvn {s t : State} (h : step s = .next t) (hne : t.nv.otpSvn ≠ s.nv.otpSvn) :
    (∃ r, s.pending = .commitSvnDone :: r) ∧ s.mgt.hkResult = 1 ∧ s.nv.otpSvn < s.mgt.fwSvn ∧ t.nv.otpSvn = s.mgt.fwSvn := by
  unfold step at h
  split at h
  case h_1 => exact absurd (goMem_otpSvn h) hne
  case h_2 c r hp =>
    by_cases hc : c = .commitSvnDone
    · subst hc
      exact ⟨⟨r, hp⟩, commitSvnDone_raises (s := { s with pending := r }) h hne⟩
    · exact absurd (exec_otpSvn hc h) hne

/-- COMMIT_SVN in READY, with no commit running and no order before it, starts one and burns nothing yet. -/
theorem commitSvn_starts {s : State} (hrun : s.running) (hw : s.waitsBehind .host = false) (hk : s.mgt.hkStopped = false)
    (hstage : s.mgt.stage = 8) (hres : s.mgt.hkResult ≠ 1) :
    Goes (.commitSvn 1) s (fun t => t.mgt = { s.mgt with hkResult := 1 } ∧ t.nv = s.nv) := by
  have hop : inTurn (.commitSvn 1) (commitSvnOp 1) s = commitSvnOp 1 s := if_neg (by simp [orderPath, hw])
  refine ⟨_, go_run hrun _, ?_, rfl⟩
  simp [hop, commitSvnOp, State.inService, hstage, hk, hres]

/-- A running commit of a higher svn burns it. -/
theorem commitSvnDone_burns {s : State} (hrun : s.running) (hk : s.mgt.hkStopped = false) (hres : s.mgt.hkResult = 1)
    (hlt : s.nv.otpSvn < s.mgt.fwSvn) : Goes .commitSvnDone s (fun t => t.nv = { s.nv with otpSvn := s.mgt.fwSvn }) := by
  refine ⟨_, goNv_run hrun _, ?_⟩
  simp [commitDoneOp_nv hres hk, Nat.max_eq_right (Nat.le_of_lt hlt)]

/-! ### The boot ROM refuses a lower svn (R391, R394) -/

theorem headerCause_ne_zero_of_svn_lt {otp : Nat} {h : Bytes} (hlt : getLe h 6 2 < otp) : headerCause otp h ≠ 0 := by
  simp only [headerCause, firstFail, hlt, decide_true, if_true]
  split
  · decide
  · split <;> decide

/-- A header that fails a condition of R391 sends the boot ROM into RECOVERY. -/
theorem stageRom_refuses {s : State} {b : Bytes} (hrun : s.running) (hk : s.mgt.hkStopped = false) (hstage : s.mgt.stage = 1)
    (hc : headerCause s.nv.otpSvn (slice (s.imageBytes 0 8192 b) 0 8192) ≠ 0) :
    Goes (.stageRom (some b)) s (fun t => t.mgt.stage = 0x0E ∧ t.mgt.recFlag = true) := by
  have hop : stageRomOp (some b) s = enterRecovery (headerCause s.nv.otpSvn (slice (s.imageBytes 0 8192 b) 0 8192)) s := by
    simp [stageRomOp, State.stageIs, hstage, hk, hc]
  refine ⟨_, go_run hrun _, ?_⟩
  simp [hop, enterRecovery, State.modMgt]

/-- Settles O7: only COMMIT_SVN_DONE writes otp_svn, and it writes a higher value; a lower svn fails R391. -/
theorem otpSvnIsRaisedOnlyByCommitSvn : Obligations.OtpSvnIsRaisedOnlyByCommitSvn := by
  unfold Obligations.OtpSvnIsRaisedOnlyByCommitSvn
  refine ⟨fun s t => step_raises_otpSvn, fun s => commitSvn_starts, fun s => commitSvnDone_burns, ?_⟩
  intro b s hrun hk hstage hlt
  exact stageRom_refuses hrun hk hstage (headerCause_ne_zero_of_svn_lt hlt)

end Sys2Proof.Machine
end
